-- ==== Sys2Proof/Word.lean ====
section
/-! DEFINITION. The word types of the block (spec/00_scope.md rules R7, R8, R9). Bit 0 is the least significant bit of
every byte, word and field (R8). -/

namespace Sys2Proof

/-- `u8`: the unit of transfer of the device's register space (R9, R36). -/
abbrev Byte := BitVec 8

/-- `u16`: an angle word or a configuration word (R9, R74). -/
abbrev Half := BitVec 16

/-- `u22`: the data field of a response, wide enough for every degree value (R9, R66, R75). -/
abbrev Data := BitVec 22

/-- `CMD[58:0]`, the command word the host presents (R60, R61). -/
abbrev CommandWord := BitVec 59

/-- `RSP[24:0]`, the response word the block answers (R66). -/
abbrev ResponseWord := BitVec 25

/-- A 7-bit two-wire device address (R35). -/
abbrev DeviceAddress := BitVec 7

end Sys2Proof
end

