-- ==== Sys2Proof/Syntax.lean ====
section
/-! DEFINITION. The commands of the block: one constructor per row of spec/opcode_table.json (spec/30_encoding.md rule
R62). -/

namespace Sys2Proof

/-- The seven operations of R3. CONFIGURE carries its seven options as mathematical integers in the order of D0's
contract (R60, R63); the six queries take no operands (R61). -/
inductive Instr where
  /-- CONFIGURE, `op = 0` (R83). -/
  | configure (hysteresis powerMode watchdog fastFilterThreshold slowFilter pwmFrequency outputStage : Int)
  /-- GET_STATUS, `op = 1` (R93). -/
  | getStatus
  /-- IS_OK, `op = 2` (R96). -/
  | isOk
  /-- GET_RAW_ANGLE, `op = 3` (R101). -/
  | getRawAngle
  /-- GET_ANGLE_DEG, `op = 4` (R104). -/
  | getAngleDeg
  /-- GET_ANGLE_DEG_FAST, `op = 5` (R107). -/
  | getAngleDegFast
  /-- GET_RAW_CONFIG, `op = 6` (R112). -/
  | getRawConfig
  deriving DecidableEq, Repr

end Sys2Proof
end

