-- ==== Sys2Proof/WellFormed.lean ====
section
/-! DEFINITION. Which commands the command word can carry: every option of CONFIGURE is an 8-bit two's-complement
integer (spec/30_encoding.md rule R63). An option outside its valid range is well formed: the range policy of R84, not
well-formedness, deals with it. -/

namespace Sys2Proof

/-- The integers `int8` can denote, -128 to 127 (R9, R63). -/
abbrev IsInt8 (v : Int) : Prop := -128 ≤ v ∧ v ≤ 127

/-- The commands that have an encoding (R63, R81). -/
def Instr.wellFormed : Instr → Bool
  | .configure h pm wd fft sf pwm os =>
      decide (IsInt8 h) && decide (IsInt8 pm) && decide (IsInt8 wd) && decide (IsInt8 fft) &&
        decide (IsInt8 sf) && decide (IsInt8 pwm) && decide (IsInt8 os)
  | .getStatus => true
  | .isOk => true
  | .getRawAngle => true
  | .getAngleDeg => true
  | .getAngleDegFast => true
  | .getRawConfig => true

end Sys2Proof
end

