-- ==== Sys2Proof/Decode.lean ====
section
/-! DEFINITION. The command word: decoder and encoder (spec/30_encoding.md rules R60 to R65, R80). A decoder reads
`CMD[2:0]` to select the operation; format `Q` ignores every other bit, format `CFG` reads all of them. -/

namespace Sys2Proof

/-- Why a word is no command. -/
inductive DecodeError where
  /-- `op = 7`, the one reserved encoding (R64): the block answers `ILLEGAL_OP`. -/
  | illegalOp
  deriving DecidableEq, Repr

/-- `CMD[2:0]`, the `op` field (R62). -/
def opField (w : CommandWord) : BitVec 3 := w.extractLsb' 0 3

/-- `int8` of the 8-bit option field whose low bit is `lo` (R9, R63). -/
def optionField (w : CommandWord) (lo : Nat) : Int := (w.extractLsb' lo 8).toInt

/-- The CONFIGURE command a word of format `CFG` carries, its fields at the bit positions of R60. -/
def decodeConfigure (w : CommandWord) : Instr :=
  .configure (optionField w 3) (optionField w 11) (optionField w 19) (optionField w 27) (optionField w 35)
    (optionField w 43) (optionField w 51)

/-- The decoder, total on every word (R62, R64). -/
def decode (w : CommandWord) : Except DecodeError Instr :=
  match (opField w).toNat with
  | 0 => .ok (decodeConfigure w)
  | 1 => .ok .getStatus
  | 2 => .ok .isOk
  | 3 => .ok .getRawAngle
  | 4 => .ok .getAngleDeg
  | 5 => .ok .getAngleDegFast
  | 6 => .ok .getRawConfig
  | _ => .error .illegalOp

/-- The `op` code of a command (R62). -/
def Instr.opCode : Instr → BitVec 3
  | .configure _ _ _ _ _ _ _ => 0#3
  | .getStatus => 1#3
  | .isOk => 2#3
  | .getRawAngle => 3#3
  | .getAngleDeg => 4#3
  | .getAngleDegFast => 5#3
  | .getRawConfig => 6#3

/-- An option as its 8-bit two's-complement field (R60). -/
def encodeOption (v : Int) : Byte := BitVec.ofInt 8 v

/-- The word of a query: `op` in bits 2:0, and zeros in the ignored bits 58:3 (R61). -/
def encodeQuery (op : BitVec 3) : CommandWord := 0#56 ++ op

/-- The encoder (R60, R61, R62). Written from the most significant field down. -/
def encode : Instr → CommandWord
  | .configure h pm wd fft sf pwm os =>
      encodeOption os ++ encodeOption pwm ++ encodeOption sf ++ encodeOption fft ++ encodeOption wd ++
        encodeOption pm ++ encodeOption h ++ 0#3
  | .getStatus => encodeQuery 1#3
  | .isOk => encodeQuery 2#3
  | .getRawAngle => encodeQuery 3#3
  | .getAngleDeg => encodeQuery 4#3
  | .getAngleDegFast => encodeQuery 5#3
  | .getRawConfig => encodeQuery 6#3

/-- The command word whose bits, numbered as spec/opcode_table.json numbers them, are `w`: the table's bit 0 is
`CMD[0]`, a bit at or above `nbits` is 0, and a bit above 58 is no bit of the word (assumption log 12). -/
def tableWord (nbits w : Nat) : CommandWord := BitVec.ofNat 59 (w % 2 ^ nbits)

/-- The command the decoder reads from a word of spec/opcode_table.json. -/
def decodeTableWord (nbits w : Nat) : Option Instr :=
  match decode (tableWord nbits w) with
  | .ok i => some i
  | .error _ => none

end Sys2Proof
end

