-- ==== Sys2Proof/Machine/Flags.lean ====
section
/-! DEFINITION. The block stores no flag (R22): these are the combinational functions of the status byte
(spec/41_status.md rules R91 and R92). -/

namespace Sys2Proof.Machine

/-- Magnet too strong, bit 3 (R91). -/
def mh (s : Byte) : Bool := s.getLsbD 3

/-- Magnet too weak, bit 4 (R91). -/
def ml (s : Byte) : Bool := s.getLsbD 4

/-- Magnet detected, bit 5 (R91). -/
def md (s : Byte) : Bool := s.getLsbD 5

/-- The validity predicate `ok` (R92). -/
def statusOk (s : Byte) : Bool := md s && !mh s && !ml s

end Sys2Proof.Machine
end

