-- ==== Sys2Proof/Config.lean ====
section
/-! DEFINITION. What one instance of the block fixes for its whole life: the five numeric parameters of
spec/00_scope.md rule R6, and the type of the transport's error values. The parameters have no body, so no proof can
see a value: a claim holds whatever they are (assumption log 1). -/

namespace Sys2Proof

/-- `DEV_ADDR`: the fixed device address every transaction is addressed to (R6, R35). -/
opaque Config.devAddr : DeviceAddress

/-- `REG_CONF`: the register-address byte of the configuration register (R6). -/
opaque Config.regConf : Byte

/-- `REG_STATUS`: the register-address byte of the status register (R6). -/
opaque Config.regStatus : Byte

/-- `REG_AGC`: the register-address byte of the AGC register (R6). -/
opaque Config.regAgc : Byte

/-- `REG_ANGLE`: the register-address byte of the angle register (R6). -/
opaque Config.regAngle : Byte

/-- `ERR`: a value the transport reports when a transaction fails (R6, R118). The block never looks inside it; the
tag only keeps different errors apart, and there are as many as one likes (assumption log 2). -/
structure TransportErr where
  tag : Nat
  deriving DecidableEq, Repr

end Sys2Proof
end

