-- ==== Sys2Proof/Machine/State.lean ====
section
/-! DEFINITION. The state of the block as plain data (spec/10_state.md rules R15 to R33), the two ports it is driven
through, and the reasons a step can stop. The spec's state is a bit, an operation latch, a step index and four byte
latches; an `Option` in it is the spec's own "holds no value" (R19, R23, R33), never a missing reset value. -/

namespace Sys2Proof.Machine

/-! ### The operation latch -/

/-- The operation `cur_op` can hold: the codes 0 to 6 of `op` (R17, R62). -/
inductive Op where
  | configure
  | getStatus
  | isOk
  | getRawAngle
  | getAngleDeg
  | getAngleDegFast
  | getRawConfig
  deriving DecidableEq, Repr

/-- `opt`: the seven option values of an accepted CONFIGURE, as integers (R17). -/
structure Options where
  hysteresis : Int
  powerMode : Int
  watchdog : Int
  fastFilterThreshold : Int
  slowFilter : Int
  pwmFrequency : Int
  outputStage : Int
  deriving DecidableEq, Repr

/-- The four byte latches, by name (R19). -/
inductive Latch where
  | status
  | agc
  | hi
  | lo
  deriving DecidableEq, Repr

/-! ### The bus port -/

/-- The register selector of the register-address decoder (R39, R40). -/
inductive RegSel where
  | conf
  | status
  | agc
  | angle
  deriving DecidableEq, Repr

/-- What the block does with a register (R25, R30, R39). -/
inductive Direction where
  | readOnly
  | writeAndRead
  deriving DecidableEq, Repr

/-- What the register-address decoder answers: address byte, payload length in bytes, direction used (R39). -/
structure RadEntry where
  address : Byte
  length : Nat
  direction : Direction
  deriving DecidableEq, Repr

/-- A transaction at the bus port: `BusWrite(a, bytes)` or `BusRead(a, n)` (R42, R43). -/
inductive Transaction where
  | write (addr : DeviceAddress) (bytes : List Byte)
  | read (addr : DeviceAddress) (count : Nat)
  deriving DecidableEq, Repr

/-- The one outcome of a transaction that has returned: `ok` with the bytes received (none for a write), or `err(e)`
(R42, R43). -/
inductive TxOutcome where
  | ok (bytes : List Byte)
  | err (e : TransportErr)
  deriving DecidableEq, Repr

/-- One entry of the trace (R13, R32). -/
structure TraceEntry where
  tx : Transaction
  outcome : TxOutcome
  deriving DecidableEq, Repr

/-- What the oracle makes a transaction return (R47). `ok b0 b1` supplies the bytes a read may receive: a read of `n`
bytes receives the first `n` of them and a write none, so a result of another length cannot exist (R43, assumption
log 4). -/
inductive Reply where
  | ok (b0 b1 : Byte)
  | err (e : TransportErr)
  deriving DecidableEq, Repr

/-- One thing the transport does while a transaction is outstanding: it has not returned yet, or it returns (R42, R49,
R131). -/
inductive Answer where
  | later
  | reply (r : Reply)
  deriving DecidableEq, Repr

/-! ### The sequence table's columns (R48) -/

/-- The transaction column: the three-byte configuration write, a register-select write, or a register read. -/
inductive Action where
  | writeConfig
  | select (r : RegSel)
  | read (r : RegSel)
  deriving DecidableEq, Repr

/-- Where received bytes go: nowhere, `LAT_STATUS`, `LAT_AGC`, or `LAT_HI` and `LAT_LO`. -/
inductive Target where
  | nowhere
  | status
  | agc
  | hiLo
  deriving DecidableEq, Repr

/-- What happens after the bytes are latched: the next row, the response, or the gate of GET_ANGLE_DEG. -/
inductive Advance where
  | next
  | respond
  | gate
  deriving DecidableEq, Repr

/-- One row of the sequence table. -/
structure Row where
  action : Action
  target : Target
  advance : Advance
  deriving DecidableEq, Repr

/-! ### The command and response ports -/

/-- One event of the host, as a line of a program: it presents a command word, or it raises RESET, which is no command
(R81, R137). -/
inductive HostEvent where
  | command (w : CommandWord)
  | reset
  deriving DecidableEq, Repr

/-- A response (R66): only `OK` carries data, only `TRANSPORT_ERROR` carries an error value. -/
inductive Response where
  | ok (data : Data)
  | unavailable
  | transportError (e : TransportErr)
  | notConstructed
  | illegalOp
  deriving DecidableEq, Repr

/-! ### Why a step stops -/

/-- Faults. The spec's own error (TransportError) is a response, not a fault; these are raised only from a state that
breaks the invariant of Safety.lean, which no step from reset reaches. All are safe: the model stops where the spec
says that a value which does not exist must not be read (spec/93_implementation_defined.md U12). -/
inductive Fault where
  /-- Raised by the completion of a transaction when `cur_op` or `step` holds no value. Safe. -/
  | noOperation
  /-- Raised when `step` is past the operation's sequence, or an answer arrives with no transaction outstanding. Safe. -/
  | noTransaction
  /-- Raised by the configuration write when `opt` holds no value. Safe. -/
  | noOptions
  /-- Raised by a response or by the gate that reads a latch the operation has not written (R19, U12). Safe. -/
  | latchUnwritten (l : Latch)
  deriving DecidableEq, Repr

/-- Refusals. The spec's two refusals (`NOT_CONSTRUCTED`, `ILLEGAL_OP`) are responses, not refusals of the model. -/
inductive Refusal where
  /-- Raised by `exec` for an instruction that has no meaning yet; no arm raises it. Safe. -/
  | notModelled (mnemonic : String)
  deriving DecidableEq, Repr

/-! ### The state -/

/-- The block, its ports, and the two lists the environment drives it with. -/
structure State where
  /-- The one persistent bit (R16). -/
  constructed : Bool
  /-- 1 from the acceptance of a command until its response (R17). -/
  busy : Bool
  /-- `cur_op` (R17). -/
  curOp : Option Op
  /-- `opt` (R17). -/
  opt : Option Options
  /-- `step : u3` (R18). -/
  stepIdx : Option (BitVec 3)
  /-- `LAT_STATUS` (R19). -/
  latStatus : Option Byte
  /-- `LAT_AGC` (R19). -/
  latAgc : Option Byte
  /-- `LAT_HI` (R19). -/
  latHi : Option Byte
  /-- `LAT_LO` (R19). -/
  latLo : Option Byte
  /-- The bus port: the transaction issued and not yet returned, if any (R33, R34). -/
  bus : Option Transaction
  /-- The response port: the response of the last command, if one has been given (R33, R66). -/
  rsp : Option Response
  /-- The trace: the transactions that have returned, oldest first, with their outcomes (R13, R32). -/
  trace : List TraceEntry
  /-- The responses delivered, oldest first (R156). -/
  responses : List Response
  /-- The model's own field: what the host does, oldest first; the block reads its head (R13, R143). -/
  host : List HostEvent
  /-- The model's own field: what the transport does with the transactions to come, oldest first (R47). When it is
  empty the outstanding transaction never returns. -/
  answers : List Answer
  deriving DecidableEq, Repr

/-- The block right after reset (R33, R138): idle, not constructed, nothing pending, nothing latched; no host event and
no answer is lined up. -/
def State.reset : State where
  constructed := false
  busy := false
  curOp := none
  opt := none
  stepIdx := none
  latStatus := none
  latAgc := none
  latHi := none
  latLo := none
  bus := none
  rsp := none
  trace := []
  responses := []
  host := []
  answers := []

/-- The outcome of a step of this machine. -/
abbrev Result := Host.Outcome State Fault Refusal

end Sys2Proof.Machine
end

