-- ==== Sys2Proof/Machine/Operands.lean ====
section
/-! DEFINITION. The pure functions between the ports: the register-address decoder RAD (R39), the configuration
encoder CFE (R84, R85), word assembly (R100), the scaler ADS (R109), and the packing of the response word (R66, R67). -/

namespace Sys2Proof.Machine

/-! ### RAD -/

/-- The register-address decoder (R39, with the register map of R25). -/
def rad : RegSel → RadEntry
  | .conf => ⟨Config.regConf, 2, .writeAndRead⟩
  | .status => ⟨Config.regStatus, 1, .readOnly⟩
  | .agc => ⟨Config.regAgc, 1, .readOnly⟩
  | .angle => ⟨Config.regAngle, 2, .readOnly⟩

/-! ### CFE -/

/-- The range check: a value outside `0..max` counts as 0 (R84). It is not a mask. -/
def fld (v : Int) (max : Nat) : Nat := if 0 ≤ v ∧ v ≤ (max : Int) then v.toNat else 0

/-- The value of `C1` as a number (R85). -/
def c1Value (o : Options) : Nat :=
  fld o.watchdog 1 <<< 5 ||| fld o.fastFilterThreshold 7 <<< 2 ||| fld o.slowFilter 3

/-- The value of `C2` as a number (R85). -/
def c2Value (o : Options) : Nat :=
  fld o.pwmFrequency 3 <<< 6 ||| fld o.outputStage 1 <<< 4 ||| fld o.hysteresis 3 <<< 2 ||| fld o.powerMode 3

/-- The byte `C1` (R68). -/
def c1 (o : Options) : Byte := BitVec.ofNat 8 (c1Value o)

/-- The byte `C2` (R69). -/
def c2 (o : Options) : Byte := BitVec.ofNat 8 (c2Value o)

/-- `conf16 = {C1, C2}` as the block assembles it (R70). -/
def confWord (o : Options) : Half := c1 o ++ c2 o

/-! ### Words from the device -/

/-- The 16-bit word of a two-byte read, first byte received in bits 15:8 (R51, R74, R100). -/
def word16 (b0 b1 : Byte) : Half := b0 ++ b1

/-! ### ADS -/

/-- The scaler: degrees in units of 1/512, over all 16 bits of the angle word (R109). -/
def scale (r : Half) : Data := r.setWidth 22 * 45#22

/-! ### The response word -/

/-- The data of a GET_STATUS response: `agc` in 7:0, then `mh`, `ml`, `md` (R67). -/
def packStatus (md ml mh : Bool) (agc : Byte) : Data :=
  0#11 ++ BitVec.ofBool md ++ BitVec.ofBool ml ++ BitVec.ofBool mh ++ agc

/-- The data of an IS_OK response: `ok` in bit 0 (R67). -/
def packOk (ok : Bool) : Data := 0#21 ++ BitVec.ofBool ok

/-- The data of a 16-bit result: the word in bits 15:0 (R67). -/
def packHalf (w : Half) : Data := 0#6 ++ w

/-- `RSP[2:0]` (R66, R125). -/
def Response.code : Response → BitVec 3
  | .ok _ => 0#3
  | .unavailable => 1#3
  | .transportError _ => 2#3
  | .notConstructed => 3#3
  | .illegalOp => 4#3

/-- `RSP[24:3]`: 0 for every code other than `OK` (R66). -/
def Response.data : Response → Data
  | .ok d => d
  | .unavailable => 0#22
  | .transportError _ => 0#22
  | .notConstructed => 0#22
  | .illegalOp => 0#22

/-- The response word (R66). -/
def Response.word (r : Response) : ResponseWord := r.data ++ r.code

/-- `rsp_err`, present with `TRANSPORT_ERROR` only (R66). -/
def Response.err : Response → Option TransportErr
  | .transportError e => some e
  | .ok _ => none
  | .unavailable => none
  | .notConstructed => none
  | .illegalOp => none

end Sys2Proof.Machine
end

