-- ==== Sys2Proof/Machine/Sequences.lean ====
section
/-! DEFINITION. The sequencer's fixed table (spec/20_memory.md rule R48), one list of rows per operation, so that a
repair of one operation leaves the others alone; and the data each operation's `OK` response carries (R67), read from
the latches its sequence wrote. -/

namespace Sys2Proof.Machine

/-! ### The rows -/

/-- CONFIGURE: one three-byte write, no read (R83, R87). -/
def seqConfigure : List Row := [⟨.writeConfig, .nowhere, .respond⟩]

/-- GET_STATUS: the status pair, then the AGC pair, never merged (R93, R145). -/
def seqGetStatus : List Row :=
  [⟨.select .status, .nowhere, .next⟩, ⟨.read .status, .status, .next⟩,
    ⟨.select .agc, .nowhere, .next⟩, ⟨.read .agc, .agc, .respond⟩]

/-- IS_OK: the status pair (R96). -/
def seqIsOk : List Row := [⟨.select .status, .nowhere, .next⟩, ⟨.read .status, .status, .respond⟩]

/-- GET_RAW_ANGLE: the angle pair (R101). -/
def seqGetRawAngle : List Row := [⟨.select .angle, .nowhere, .next⟩, ⟨.read .angle, .hiLo, .respond⟩]

/-- GET_ANGLE_DEG: the status pair, the gate, and only past the gate the angle pair (R104, R105). -/
def seqGetAngleDeg : List Row :=
  [⟨.select .status, .nowhere, .next⟩, ⟨.read .status, .status, .gate⟩,
    ⟨.select .angle, .nowhere, .next⟩, ⟨.read .angle, .hiLo, .respond⟩]

/-- GET_ANGLE_DEG_FAST: the angle pair, with no gate (R107, R147). -/
def seqGetAngleDegFast : List Row := [⟨.select .angle, .nowhere, .next⟩, ⟨.read .angle, .hiLo, .respond⟩]

/-- GET_RAW_CONFIG: the configuration pair (R112). -/
def seqGetRawConfig : List Row := [⟨.select .conf, .nowhere, .next⟩, ⟨.read .conf, .hiLo, .respond⟩]

/-- The sequence table (R48). -/
def sequence : Op → List Row
  | .configure => seqConfigure
  | .getStatus => seqGetStatus
  | .isOk => seqIsOk
  | .getRawAngle => seqGetRawAngle
  | .getAngleDeg => seqGetAngleDeg
  | .getAngleDegFast => seqGetAngleDegFast
  | .getRawConfig => seqGetRawConfig

/-- Row `k` of an operation, if its sequence is that long (R18, R48). -/
def rowAt (op : Op) (k : BitVec 3) : Option Row := (sequence op)[k.toNat]?

/-- The frame a row puts on the bus: the configuration write of R77, the register-select frame of R76, or the read
frame of R78, always to the one device address (R35). Only the first needs the latched options. -/
def rowTransaction (row : Row) (opt : Option Options) : Option Transaction :=
  match row.action with
  | .writeConfig => opt.map fun o => .write Config.devAddr [(rad .conf).address, c1 o, c2 o]
  | .select r => some (.write Config.devAddr [(rad r).address])
  | .read r => some (.read Config.devAddr (rad r).length)

/-- The bytes a transaction receives when the oracle says `ok b0 b1`: the first `n` for a read of `n` (1 or 2), none
for a write (R42, R43). -/
def received (tx : Transaction) (b0 b1 : Byte) : List Byte :=
  match tx with
  | .write _ _ => []
  | .read _ n => [b0, b1].take n

/-! ### The data of an `OK` response -/

/-- The latched two-byte word, `LAT_HI` in bits 15:8 (R100). -/
def latchedWord (s : State) : Except Fault Half :=
  match s.latHi, s.latLo with
  | some b0, some b1 => .ok (word16 b0 b1)
  | none, _ => .error (.latchUnwritten .hi)
  | some _, none => .error (.latchUnwritten .lo)

/-- CONFIGURE answers 0 (R83). -/
def dataConfigure (_ : State) : Except Fault Data := .ok 0#22

/-- GET_STATUS answers all four fields, whatever they are (R93, R94). -/
def dataGetStatus (s : State) : Except Fault Data :=
  match s.latStatus, s.latAgc with
  | some st, some g => .ok (packStatus (md st) (ml st) (mh st) g)
  | none, _ => .error (.latchUnwritten .status)
  | some _, none => .error (.latchUnwritten .agc)

/-- IS_OK answers the predicate (R96). -/
def dataIsOk (s : State) : Except Fault Data :=
  match s.latStatus with
  | some st => .ok (packOk (statusOk st))
  | none => .error (.latchUnwritten .status)

/-- GET_RAW_ANGLE answers all 16 bits, unmasked (R101, R102). -/
def dataGetRawAngle (s : State) : Except Fault Data :=
  match latchedWord s with
  | .ok w => .ok (packHalf w)
  | .error f => .error f

/-- GET_ANGLE_DEG answers the scaled angle (R104). -/
def dataGetAngleDeg (s : State) : Except Fault Data :=
  match latchedWord s with
  | .ok w => .ok (scale w)
  | .error f => .error f

/-- GET_ANGLE_DEG_FAST answers the scaled angle (R107). -/
def dataGetAngleDegFast (s : State) : Except Fault Data :=
  match latchedWord s with
  | .ok w => .ok (scale w)
  | .error f => .error f

/-- GET_RAW_CONFIG answers all 16 bits as received (R112, R113). -/
def dataGetRawConfig (s : State) : Except Fault Data :=
  match latchedWord s with
  | .ok w => .ok (packHalf w)
  | .error f => .error f

/-- The data of an operation's `OK` response (R67). -/
def okData : Op → State → Except Fault Data
  | .configure, s => dataConfigure s
  | .getStatus, s => dataGetStatus s
  | .isOk, s => dataIsOk s
  | .getRawAngle, s => dataGetRawAngle s
  | .getAngleDeg, s => dataGetAngleDeg s
  | .getAngleDegFast, s => dataGetAngleDegFast s
  | .getRawConfig, s => dataGetRawConfig s

end Sys2Proof.Machine
end

