-- ==== Sys2Proof/Machine/Ops.lean ====
section
/-! DEFINITION. The operations every command is made of: responding, refusing, raising a TransportError, issuing a
transaction, taking its outcome, and running the sequencer (spec/20_memory.md rules R42 to R50, spec/60_exceptions.md,
spec/70_reset_and_hazards.md rules R137 to R143). The block has no return-from-exception operation: the response is the
end, and the block is idle after it (R129). -/

namespace Sys2Proof.Machine

/-! ### Ends of an operation -/

/-- The end of an operation, normal or not: the response is delivered, the block is idle, and the operation latch, the
step index and the byte latches hold no value any more (R17, R23, R128). -/
def State.respond (s : State) (r : Response) : State :=
  { s with
    busy := false
    curOp := none
    opt := none
    stepIdx := none
    latStatus := none
    latAgc := none
    latHi := none
    latLo := none
    bus := none
    rsp := some r
    responses := s.responses ++ [r] }

/-- A refusal: a response to a command the block did not attempt; no transaction, no change of the block's state
(R10, R123, R124). -/
def State.refuse (s : State) (r : Response) : State :=
  { s with rsp := some r, responses := s.responses ++ [r] }

/-- Taking the block's one exception: `raise TransportError(e)` delivers `TRANSPORT_ERROR` with `e` unmodified, writes
no persistent state and ends the operation (R10, R117, R118, R128). -/
def State.raiseTransportError (s : State) (e : TransportErr) : State := s.respond (.transportError e)

/-- A command word whose `op` is reserved is answered `ILLEGAL_OP` (R64, R124). -/
def State.refuseIllegal (s : State) : State := s.refuse .illegalOp

/-- A query while nothing is constructed is answered `NOT_CONSTRUCTED` (R123). -/
def State.refuseNotConstructed (s : State) : State := s.refuse .notConstructed

/-- CONFIGURE's effect on success: `constructed <- 1` (R83, R89). -/
def State.construct (s : State) : State := { s with constructed := true }

/-! ### Acceptance and the bus port -/

/-- The acceptance of a command: `busy`, `cur_op` and `opt` are latched, `step` is 0, and no latch holds a value yet
(R17, R18, R19). The host has taken the previous response (R143), so the response port is empty until this one's. -/
def State.accept (s : State) (op : Op) (opt : Option Options) : State :=
  { s with
    busy := true
    curOp := some op
    opt := opt
    stepIdx := some 0#3
    latStatus := none
    latAgc := none
    latHi := none
    latLo := none
    bus := none
    rsp := none }

/-- A transaction has returned: it enters the trace with its outcome and leaves the bus port (R13, R32). -/
def State.record (s : State) (tx : Transaction) (outcome : TxOutcome) : State :=
  { s with trace := s.trace ++ [⟨tx, outcome⟩], bus := none }

/-- The received bytes go to the latches the row names (R19, R48). -/
def State.latch (s : State) (target : Target) (b0 b1 : Byte) : State :=
  match target with
  | .nowhere => s
  | .status => { s with latStatus := some b0 }
  | .agc => { s with latAgc := some b0 }
  | .hiLo => { s with latHi := some b0, latLo := some b1 }

/-- Issue transaction `k` of an operation: it is then outstanding on the bus port (R18, R49). -/
def issue (op : Op) (k : BitVec 3) (s : State) : Result :=
  match rowAt op k with
  | none => .fault .noTransaction
  | some row =>
    match rowTransaction row s.opt with
    | none => .fault .noOptions
    | some tx => .next { s with stepIdx := some k, bus := some tx }

/-! ### The end of a sequence, per operation -/

/-- Respond `OK` with the operation's data, or fault on a latch that holds no value. -/
def respondOk (d : Except Fault Data) (s : State) : Result :=
  match d with
  | .ok v => .next (s.respond (.ok v))
  | .error f => .fault f

/-- The end of an operation's sequence (R48): CONFIGURE alone also sets `constructed` (R16, R83). -/
def finish (op : Op) (s : State) : Result :=
  match op with
  | .configure => respondOk (okData .configure s) s.construct
  | .getStatus => respondOk (okData .getStatus s) s
  | .isOk => respondOk (okData .isOk s) s
  | .getRawAngle => respondOk (okData .getRawAngle s) s
  | .getAngleDeg => respondOk (okData .getAngleDeg s) s
  | .getAngleDegFast => respondOk (okData .getAngleDegFast s) s
  | .getRawConfig => respondOk (okData .getRawConfig s) s

/-- The gate of GET_ANGLE_DEG: on a status that is not `ok` it responds `UNAVAILABLE` and issues nothing more (R105). -/
def gate (op : Op) (k : BitVec 3) (s : State) : Result :=
  match s.latStatus with
  | none => .fault (.latchUnwritten .status)
  | some st => if statusOk st then issue op (k + 1#3) s else .next (s.respond .unavailable)

/-- What follows a transaction that returned `ok`, once its bytes are latched (R18, R48). -/
def advance (op : Op) (k : BitVec 3) (a : Advance) (s : State) : Result :=
  match a with
  | .next => issue op (k + 1#3) s
  | .respond => finish op s
  | .gate => gate op k s

/-- The outstanding transaction returns: its outcome enters the trace; `err(e)` raises TransportError, `ok` latches the
bytes and advances (R18, R50, R117). -/
def complete (r : Reply) (s : State) : Result :=
  match s.curOp, s.stepIdx, s.bus with
  | some op, some k, some tx =>
    match rowAt op k with
    | none => .fault .noTransaction
    | some row =>
      match r with
      | .err e => .next ((s.record tx (.err e)).raiseTransportError e)
      | .ok b0 b1 => advance op k row.advance ((s.record tx (.ok (received tx b0 b1))).latch row.target b0 b1)
  | none, _, _ => .fault .noOperation
  | some _, none, _ => .fault .noOperation
  | some _, some _, none => .fault .noTransaction

/-! ### The sequencer -/

/-- Run the sequencer on what the transport does, given as a list: each reply completes the outstanding transaction,
and the block issues the next one or responds without waiting (R49, R155). It stops when the operation has responded,
when the transport has not returned yet, or when nothing more is lined up; in the last two cases the transaction stays
outstanding (R131). -/
def settle : List Answer → State → Result
  | [], s => .next { s with answers := [] }
  | a :: as, s =>
    if s.busy then
      match a with
      | .later => .next { s with answers := as }
      | .reply r =>
        match complete r s with
        | .next s' => settle as s'
        | .fault f => .fault f
        | .refused x => .refused x
    else .next { s with answers := a :: as }

/-- A busy block goes on with its outstanding transaction; if the transport never returns, this changes nothing, which
is how the model says "no enabled step" (R49, R131, assumption log 5). -/
def resume (s : State) : Result := settle s.answers s

/-- Start an accepted operation: issue its transaction 0 and run the sequencer (R127 (3)). -/
def startOperation (op : Op) (opt : Option Options) (s : State) : Result :=
  match issue op 0#3 (s.accept op opt) with
  | .next s' => resume s'
  | .fault f => .fault f
  | .refused x => .refused x

/-- A command presented to the block. While an operation is in progress it is not accepted and nothing happens (R143);
CONFIGURE is accepted whether or not anything is constructed (R83, R89). -/
def presentConfigure (o : Options) (s : State) : Result :=
  if s.busy then .next s else startOperation .configure (some o) s

/-- A query presented to the block: as above, and refused while `constructed` is 0 (R123, R127 (2)). -/
def presentQuery (op : Op) (s : State) : Result :=
  if s.busy then .next s
  else if s.constructed then startOperation op none s
  else .next s.refuseNotConstructed

/-! ### Host events -/

/-- The RESET event: every piece of block state goes to its reset value, no transaction is issued and no response is
delivered (R33, R137, R139). What the host and the transport do next is not the block's and stays; the two records
start afresh (assumption logs 7 and 8). -/
def State.resetEvent (s : State) : State := { State.reset with host := s.host, answers := s.answers }

/-- The host event at the head has been taken. -/
def State.dropEvent (s : State) : State := { s with host := s.host.drop 1 }

end Sys2Proof.Machine
end

