-- ==== Sys2Proof/Machine/Angle.lean ====
section
/-! DEFINITION. The angle queries and the configuration read-back (spec/42_angle.md). -/

namespace Sys2Proof.Machine

/-- GET_RAW_ANGLE (R101): the angle pair, 16 bits unmasked. -/
def execGetRawAngle (s : State) : Result := presentQuery .getRawAngle s

/-- GET_ANGLE_DEG (R104): the status pair, the gate, then the angle pair scaled. -/
def execGetAngleDeg (s : State) : Result := presentQuery .getAngleDeg s

/-- GET_ANGLE_DEG_FAST (R107): the angle pair scaled, with no status check. -/
def execGetAngleDegFast (s : State) : Result := presentQuery .getAngleDegFast s

/-- GET_RAW_CONFIG (R112): the configuration pair, 16 bits as received. -/
def execGetRawConfig (s : State) : Result := presentQuery .getRawConfig s

end Sys2Proof.Machine
end

