-- ==== Sys2Proof/Machine/Configure.lean ====
section
/-! DEFINITION. CONFIGURE (spec/40_configure.md). -/

namespace Sys2Proof.Machine

/-- CONFIGURE (R83): one write of `[REG_CONF, C1, C2]`; on success `constructed <- 1` and `OK`. Never refused. -/
def execConfigure (h pm wd fft sf pwm os : Int) (s : State) : Result :=
  presentConfigure ⟨h, pm, wd, fft, sf, pwm, os⟩ s

end Sys2Proof.Machine
end

