-- ==== Sys2Proof/Machine/Status.lean ====
section
/-! DEFINITION. GET_STATUS and IS_OK (spec/41_status.md). -/

namespace Sys2Proof.Machine

/-- GET_STATUS (R93): two pairs, all four fields reported whatever they are. -/
def execGetStatus (s : State) : Result := presentQuery .getStatus s

/-- IS_OK (R96): its own status pair, the predicate reported. -/
def execIsOk (s : State) : Result := presentQuery .isOk s

end Sys2Proof.Machine
end

