-- ==== Sys2Proof/Machine/Dispatch.lean ====
section
/-! DEFINITION. What each command does (spec/30_encoding.md rule R62): one arm per constructor of Instr. -/

namespace Sys2Proof.Machine

def exec (i : Instr) (s : State) : Host.Outcome State Fault Refusal :=
  match i with
  | .configure h pm wd fft sf pwm os => Sys2Proof.Machine.execConfigure h pm wd fft sf pwm os s
  | .getStatus => Sys2Proof.Machine.execGetStatus s
  | .isOk => Sys2Proof.Machine.execIsOk s
  | .getRawAngle => Sys2Proof.Machine.execGetRawAngle s
  | .getAngleDeg => Sys2Proof.Machine.execGetAngleDeg s
  | .getAngleDegFast => Sys2Proof.Machine.execGetAngleDegFast s
  | .getRawConfig => Sys2Proof.Machine.execGetRawConfig s

end Sys2Proof.Machine
end

