-- ==== Sys2Proof/Machine/Step.lean ====
section
/-! DEFINITION. One step of the machine. RESET takes effect whenever the host raises it (R137, R139); otherwise a busy
block goes on with its operation, and an idle block accepts the command the host presents, or waits for one (R138,
R143, R155). -/

namespace Sys2Proof.Machine

/-- An idle block answers a command word: the reserved code first, then the command's own checks (R127). -/
def runCommand (w : CommandWord) (s : State) : Host.Outcome State Fault Refusal :=
  match decode w with
  | .ok i => exec i s
  | .error .illegalOp => .next s.refuseIllegal

/-- One step. A command is taken off the host's list when it is accepted or refused, never while the block is busy. -/
def step (s : State) : Host.Outcome State Fault Refusal :=
  match s.host with
  | .reset :: _ => .next s.dropEvent.resetEvent
  | [] => if s.busy then resume s else .next s
  | .command w :: _ => if s.busy then resume s else runCommand w s.dropEvent

/-- `s` with a command word of spec/opcode_table.json presented at the command port, ahead of anything else the host
does, so that the very next step of an idle block accepts it (assumption log 11). -/
def State.withFetchWord (s : State) (nbits w : Nat) : State :=
  { s with host := .command (tableWord nbits w) :: s.host }

end Sys2Proof.Machine
end

