-- ==== Sys2Proof/Safety.lean ====
section
/-! DEFINITION. The terms claims about the machine are stated in: what a run premises, the state an operation ends in,
the spec's pseudocode written down directly as a reference, and the invariants (spec/10_state.md rule R34). None of
this is used by the machine. -/

namespace Sys2Proof

/-! ### Commands -/

namespace Instr

/-- The operation a command starts (R62). -/
def op : Instr → Machine.Op
  | .configure _ _ _ _ _ _ _ => .configure
  | .getStatus => .getStatus
  | .isOk => .isOk
  | .getRawAngle => .getRawAngle
  | .getAngleDeg => .getAngleDeg
  | .getAngleDegFast => .getAngleDegFast
  | .getRawConfig => .getRawConfig

/-- The options a command carries: CONFIGURE's seven, none for a query (R17). -/
def opt : Instr → Option Machine.Options
  | .configure h pm wd fft sf pwm os => some ⟨h, pm, wd, fft, sf, pwm, os⟩
  | .getStatus => none
  | .isOk => none
  | .getRawAngle => none
  | .getAngleDeg => none
  | .getAngleDegFast => none
  | .getRawConfig => none

/-- One of the six queries (R61). -/
def IsQuery (i : Instr) : Prop := i.op ≠ .configure

end Instr

namespace Machine

/-- The block starts the operation rather than refusing it or leaving it unaccepted (R123, R127, R143). -/
def State.Accepts (s : State) (i : Instr) : Prop := s.busy = false ∧ (i.IsQuery → s.constructed = true)

/-! ### Frames and trace entries as the spec writes them -/

/-- `W[bytes]` (R48). -/
def busWrite (bytes : List Byte) : Transaction := .write Config.devAddr bytes

/-- `R(n)` (R48). -/
def busRead (n : Nat) : Transaction := .read Config.devAddr n

/-- `W[bytes]` that returned `ok`. -/
def wrote (bytes : List Byte) : TraceEntry := ⟨busWrite bytes, .ok []⟩

/-- `R(n)=[bytes]`, with `n` the number of bytes received. -/
def readIn (bytes : List Byte) : TraceEntry := ⟨busRead bytes.length, .ok bytes⟩

/-- A transaction that returned `err(e)`. -/
def failed (tx : Transaction) (e : TransportErr) : TraceEntry := ⟨tx, .err e⟩

/-- A transaction that returned `ok`. -/
def TraceEntry.succeeded (e : TraceEntry) : Bool :=
  match e.outcome with
  | .ok _ => true
  | .err _ => false

/-! ### The end of an operation -/

/-- The state of an operation that ended: idle, with nothing latched, the response given, the trace longer by `es`,
and `rest` still to come from the transport. Everything else is as in `s` (R17, R23, R128). -/
def State.ended (s : State) (es : List TraceEntry) (r : Response) (rest : List Answer) : State where
  constructed := s.constructed
  busy := false
  curOp := none
  opt := none
  stepIdx := none
  latStatus := none
  latAgc := none
  latHi := none
  latLo := none
  bus := none
  rsp := some r
  trace := s.trace ++ es
  responses := s.responses ++ [r]
  host := s.host
  answers := rest

/-! ### The spec's pseudocode, directly

Each operation as a function of what its transactions return: what the spec calls a big-step model
(spec/92_eei_decisions.md D17). `none` means that an answer is missing, so that the operation does not end. -/

/-- How an operation ends: the transactions it issued, its response, and the replies it left untouched. -/
structure Ending where
  entries : List TraceEntry
  response : Response
  rest : List Reply
  deriving DecidableEq, Repr

namespace Pseudo

/-- `BusWrite(DEV_ADDR, bytes)?` and then `k` (R10, R42). -/
def write (bytes : List Byte) (k : List Reply → Option Ending) : List Reply → Option Ending
  | [] => none
  | .err e :: rs => some ⟨[failed (busWrite bytes) e], .transportError e, rs⟩
  | .ok _ _ :: rs => (k rs).map fun d => { d with entries := wrote bytes :: d.entries }

/-- `[b] <- BusRead(DEV_ADDR, 1)?` and then `k b` (R10, R43). -/
def read1 (k : Byte → List Reply → Option Ending) : List Reply → Option Ending
  | [] => none
  | .err e :: rs => some ⟨[failed (busRead 1) e], .transportError e, rs⟩
  | .ok b _ :: rs => (k b rs).map fun d => { d with entries := readIn [b] :: d.entries }

/-- `[b0, b1] <- BusRead(DEV_ADDR, 2)?` and then `k b0 b1` (R10, R43). -/
def read2 (k : Byte → Byte → List Reply → Option Ending) : List Reply → Option Ending
  | [] => none
  | .err e :: rs => some ⟨[failed (busRead 2) e], .transportError e, rs⟩
  | .ok b0 b1 :: rs => (k b0 b1 rs).map fun d => { d with entries := readIn [b0, b1] :: d.entries }

/-- `respond OK(n)`, or any other response. -/
def respond (r : Response) (rs : List Reply) : Option Ending := some ⟨[], r, rs⟩

/-- R83, with the formulas of R85 written out. -/
def configure (o : Options) : List Reply → Option Ending :=
  write [Config.regConf,
      BitVec.ofNat 8 ((fld o.watchdog 1 <<< 5) ||| (fld o.fastFilterThreshold 7 <<< 2) ||| fld o.slowFilter 3),
      BitVec.ofNat 8 ((fld o.pwmFrequency 3 <<< 6) ||| (fld o.outputStage 1 <<< 4) |||
        (fld o.hysteresis 3 <<< 2) ||| fld o.powerMode 3)]
    (respond (.ok 0))

/-- R93: `data[7:0] = g, data[8] = mh, data[9] = ml, data[10] = md`. -/
def getStatus : List Reply → Option Ending :=
  write [Config.regStatus] <| read1 fun s => write [Config.regAgc] <| read1 fun g =>
    respond (.ok (BitVec.ofNat 22 (g.toNat + (if s.getLsbD 3 then 256 else 0) + (if s.getLsbD 4 then 512 else 0) +
      (if s.getLsbD 5 then 1024 else 0))))

/-- R96, with the predicate as the mask test of R92. -/
def isOk : List Reply → Option Ending :=
  write [Config.regStatus] <| read1 fun s => respond (.ok (if s &&& 0x38#8 = 0x20#8 then 1 else 0))

/-- R101. -/
def getRawAngle : List Reply → Option Ending :=
  write [Config.regAngle] <| read2 fun b0 b1 => respond (.ok (BitVec.ofNat 22 (b0.toNat * 256 + b1.toNat)))

/-- R104, R105. -/
def getAngleDeg : List Reply → Option Ending :=
  write [Config.regStatus] <| read1 fun s =>
    if s &&& 0x38#8 = 0x20#8 then
      write [Config.regAngle] <| read2 fun b0 b1 =>
        respond (.ok (BitVec.ofNat 22 ((b0.toNat * 256 + b1.toNat) * 45)))
    else respond .unavailable

/-- R107. -/
def getAngleDegFast : List Reply → Option Ending :=
  write [Config.regAngle] <| read2 fun b0 b1 => respond (.ok (BitVec.ofNat 22 ((b0.toNat * 256 + b1.toNat) * 45)))

/-- R112. -/
def getRawConfig : List Reply → Option Ending :=
  write [Config.regConf] <| read2 fun b0 b1 => respond (.ok (BitVec.ofNat 22 (b0.toNat * 256 + b1.toNat)))

/-- The pseudocode of every command. -/
def run : Instr → List Reply → Option Ending
  | .configure h pm wd fft sf pwm os => configure ⟨h, pm, wd, fft, sf, pwm, os⟩
  | .getStatus => getStatus
  | .isOk => isOk
  | .getRawAngle => getRawAngle
  | .getAngleDeg => getAngleDeg
  | .getAngleDegFast => getAngleDegFast
  | .getRawConfig => getRawConfig

end Pseudo

/-! ### Invariants -/

/-- Every option is an 8-bit integer (R17). -/
def Options.inRange (o : Options) : Prop :=
  IsInt8 o.hysteresis ∧ IsInt8 o.powerMode ∧ IsInt8 o.watchdog ∧ IsInt8 o.fastFilterThreshold ∧
    IsInt8 o.slowFilter ∧ IsInt8 o.pwmFrequency ∧ IsInt8 o.outputStage

/-- The rows before step `k` have written this target's latches (R19). -/
def latchedBefore (op : Op) (k : BitVec 3) (t : Target) : Bool :=
  ((sequence op).take k.toNat).any fun row => decide (row.target = t)

/-- While idle nothing is latched and nothing is on the bus (R23, R33, R34). -/
structure State.IdleInv (s : State) : Prop where
  curOp : s.curOp = none
  opt : s.opt = none
  stepIdx : s.stepIdx = none
  latStatus : s.latStatus = none
  latAgc : s.latAgc = none
  latHi : s.latHi = none
  latLo : s.latLo = none
  bus : s.bus = none

/-- While busy with operation `op` at step `k`: the transaction of row `k` is outstanding, exactly the latches that
earlier rows write hold values, a query runs only on a constructed block, and past the gate of GET_ANGLE_DEG the status
was `ok` (R17 to R19, R34, R48, R55). -/
structure State.BusyInv (s : State) (op : Op) (k : BitVec 3) : Prop where
  curOp : s.curOp = some op
  stepIdx : s.stepIdx = some k
  issued : ∃ row tx, rowAt op k = some row ∧ rowTransaction row s.opt = some tx ∧ s.bus = some tx
  opt : (op = .configure → ∃ o, s.opt = some o ∧ o.inRange) ∧ (op ≠ .configure → s.opt = none)
  constructed : op ≠ .configure → s.constructed = true
  latStatus : s.latStatus.isSome = latchedBefore op k .status
  latAgc : s.latAgc.isSome = latchedBefore op k .agc
  latHi : s.latHi.isSome = latchedBefore op k .hiLo
  latLo : s.latLo.isSome = latchedBefore op k .hiLo
  gatePassed : op = .getAngleDeg → 2 ≤ k.toNat → ∃ st, s.latStatus = some st ∧ statusOk st = true
  rsp : s.rsp = none

/-- The invariant of the block (R34). -/
def State.Inv (s : State) : Prop :=
  (s.busy = false → s.IdleInv) ∧ (s.busy = true → ∃ op k, s.BusyInv op k)

/-- The transactions the block may issue: the four register-select writes, the configuration write, and one- or
two-byte reads, all to the one device address (R30, R35, R42, R43, R76 to R78). -/
def Transaction.Permitted : Transaction → Prop
  | .write a bytes =>
      a = Config.devAddr ∧
        (bytes = [Config.regConf] ∨ bytes = [Config.regStatus] ∨ bytes = [Config.regAgc] ∨
          bytes = [Config.regAngle] ∨ ∃ o : Options, bytes = [Config.regConf, c1 o, c2 o])
  | .read a n => a = Config.devAddr ∧ (n = 1 ∨ n = 2)

/-- An entry of the trace is a permitted transaction, and an `ok` read received exactly the bytes it asked for (R43). -/
def TraceEntry.Permitted (e : TraceEntry) : Prop :=
  e.tx.Permitted ∧
    match e.tx, e.outcome with
    | .write _ _, .ok bytes => bytes = []
    | .read _ n, .ok bytes => bytes.length = n
    | _, .err _ => True

/-- Every transaction in the trace is a permitted one. -/
def State.TracePermitted (s : State) : Prop := ∀ e ∈ s.trace, e.Permitted

/-! ### Renaming transport errors -/

/-- Apply `f` to an error value in an outcome. -/
def TxOutcome.mapErr (f : TransportErr → TransportErr) : TxOutcome → TxOutcome
  | .ok bytes => .ok bytes
  | .err e => .err (f e)

/-- Apply `f` to an error value in a reply. -/
def Reply.mapErr (f : TransportErr → TransportErr) : Reply → Reply
  | .ok b0 b1 => .ok b0 b1
  | .err e => .err (f e)

/-- Apply `f` to an error value in an answer. -/
def Answer.mapErr (f : TransportErr → TransportErr) : Answer → Answer
  | .later => .later
  | .reply r => .reply (r.mapErr f)

/-- Apply `f` to an error value in a response. -/
def Response.mapErr (f : TransportErr → TransportErr) : Response → Response
  | .ok d => .ok d
  | .unavailable => .unavailable
  | .transportError e => .transportError (f e)
  | .notConstructed => .notConstructed
  | .illegalOp => .illegalOp

/-- Apply `f` to every error value in a state. -/
def State.mapErr (f : TransportErr → TransportErr) (s : State) : State :=
  { s with
    rsp := s.rsp.map (Response.mapErr f)
    trace := s.trace.map fun e => { e with outcome := e.outcome.mapErr f }
    responses := s.responses.map (Response.mapErr f)
    answers := s.answers.map (Answer.mapErr f) }

/-- Apply a function to the next state of an outcome. -/
def Result.map (f : State → State) : Result → Result
  | .next s => .next (f s)
  | .fault r => .fault r
  | .refused r => .refused r

end Machine

end Sys2Proof
end

