-- ==== Sys2Proof/Certificates/Slice0/Obligations.lean ====
section
/-! DEFINITION. The statements for the provers. Each docstring names the rules of spec/ the statement formalises; a
clause that rests on a choice of the model names its assumption-log entry. -/

open Sys2Proof Sys2Proof.Machine

/-! ## Encodings (spec/30_encoding.md) -/

/-- Words written out from the bit positions of R60 and the codes of R62 decode to the commands they stand for:
vectors V2, V8, P4's third line, the six query codes, V66, and the reserved code (V64, V65). -/
def Obligations.WrittenOutWordsDecode : Prop :=
  decode 0x008181028080810#59 = .ok (.configure 2 1 1 5 2 3 1) ∧
  decode 0x7FFFFFFFFFC07F8#59 = .ok (.configure (-1) (-128) (-1) (-1) (-1) (-1) (-1)) ∧
  decode 0x010001807F80038#59 = .ok (.configure 7 0 (-1) 0 3 0 2) ∧
  decode 1#59 = .ok .getStatus ∧ decode 2#59 = .ok .isOk ∧ decode 3#59 = .ok .getRawAngle ∧
  decode 4#59 = .ok .getAngleDeg ∧ decode 5#59 = .ok .getAngleDegFast ∧ decode 6#59 = .ok .getRawConfig ∧
  decode 0x7FFFFFFFFFFFFFA#59 = .ok .isOk ∧
  decode 7#59 = .error .illegalOp ∧ decode 0x7FFFFFFFFFFFFFF#59 = .error .illegalOp

/-- Decode and encode agree, for every command and every option value the word can carry (R60 to R63). -/
def Obligations.DecodeOfEncodeIsTheCommand : Prop :=
  ∀ i : Instr, i.wellFormed = true → decode (encode i) = .ok i

/-- A word that decodes is the encoding of its command, up to the bits format `Q` ignores, and the command is well
formed (R60, R61, R63). -/
def Obligations.EncodeOfDecodeIsTheWord : Prop :=
  ∀ (w : CommandWord) (i : Instr), decode w = .ok i →
    i.wellFormed = true ∧ (i.IsQuery → encode i = 0#56 ++ opField w) ∧ (¬ i.IsQuery → encode i = w)

/-- R65: in format `Q` the bits 58:3 take no part in decode or execution; in format `CFG` no bit is ignored; and no
encoding but `op = 7` is illegal. -/
def Obligations.OnlyQueriesIgnoreBitsAndOnlyOpSevenIsIllegal : Prop :=
  (∀ w v : CommandWord, opField w ≠ 0#3 → opField v = opField w →
    decode v = decode w ∧ ∀ s : State, runCommand v s = runCommand w s) ∧
  (∀ w v : CommandWord, opField w = 0#3 → opField v = 0#3 → decode v = decode w → v = w) ∧
  (∀ w : CommandWord, decode w = .error .illegalOp ↔ opField w = 7#3)

/-! ## The configuration encoder (spec/40_configure.md) -/

/-- R84: a value inside `0..max` is kept, any other counts as 0, for each option with its own valid range and without
touching another field; and no error is raised, whatever the seven values are. -/
def Obligations.OutOfRangeOptionsCountAsZero : Prop :=
  (∀ (v : Int) (max : Nat), (0 ≤ v ∧ v ≤ max → (fld v max : Int) = v) ∧ (v < 0 ∨ (max : Int) < v → fld v max = 0)) ∧
  (∀ (o : Options) (v : Int),
    (v < 0 ∨ 3 < v → confWord { o with hysteresis := v } = confWord { o with hysteresis := 0 }) ∧
    (v < 0 ∨ 3 < v → confWord { o with powerMode := v } = confWord { o with powerMode := 0 }) ∧
    (v < 0 ∨ 1 < v → confWord { o with watchdog := v } = confWord { o with watchdog := 0 }) ∧
    (v < 0 ∨ 7 < v → confWord { o with fastFilterThreshold := v } = confWord { o with fastFilterThreshold := 0 }) ∧
    (v < 0 ∨ 3 < v → confWord { o with slowFilter := v } = confWord { o with slowFilter := 0 }) ∧
    (v < 0 ∨ 3 < v → confWord { o with pwmFrequency := v } = confWord { o with pwmFrequency := 0 }) ∧
    (v < 0 ∨ 1 < v → confWord { o with outputStage := v } = confWord { o with outputStage := 0 })) ∧
  ∀ (h pm wd fft sf pwm os : Int) (s : State) (b0 b1 : Byte) (rest : List Answer),
    s.busy = false → s.answers = .reply (.ok b0 b1) :: rest →
    ∃ t, exec (.configure h pm wd fft sf pwm os) s = .next t ∧ t.rsp = some (.ok 0)

/-- R86 (a) to (c) of the bytes of R85: the fields are disjoint, so the `|` of the formula is a sum; nothing is lost in
the byte; `C1 <= 0x3F`, `C2 <= 0xDF`; and `C1[7:6]` and `C2[5]` are 0 for every input. -/
def Obligations.ConfigurationFieldsAreDisjoint : Prop :=
  ∀ o : Options,
    (c1 o).toNat = 32 * fld o.watchdog 1 + 4 * fld o.fastFilterThreshold 7 + fld o.slowFilter 3 ∧
    (c2 o).toNat = 64 * fld o.pwmFrequency 3 + 16 * fld o.outputStage 1 + 4 * fld o.hysteresis 3 + fld o.powerMode 3 ∧
    (c1 o).toNat ≤ 0x3F ∧ (c2 o).toNat ≤ 0xDF ∧
    (c1 o).extractLsb' 6 2 = 0#2 ∧ (c2 o).getLsbD 5 = false

/-- R86 (d) and (e): each option is recovered from the bytes (its value if valid, 0 if not), `C1` takes exactly the 64
values below 0x40, and `C2` exactly the 128 values whose bit 5 is 0. -/
def Obligations.ConfigurationOptionsAreRecovered : Prop :=
  (∀ o : Options,
    ((c1 o).extractLsb' 5 1).toNat = fld o.watchdog 1 ∧
    ((c1 o).extractLsb' 2 3).toNat = fld o.fastFilterThreshold 7 ∧
    ((c1 o).extractLsb' 0 2).toNat = fld o.slowFilter 3 ∧
    ((c2 o).extractLsb' 6 2).toNat = fld o.pwmFrequency 3 ∧
    ((c2 o).extractLsb' 4 1).toNat = fld o.outputStage 1 ∧
    ((c2 o).extractLsb' 2 2).toNat = fld o.hysteresis 3 ∧
    ((c2 o).extractLsb' 0 2).toNat = fld o.powerMode 3) ∧
  (∀ b : Byte, (∃ o : Options, c1 o = b) ↔ b.toNat < 64) ∧
  (∀ b : Byte, (∃ o : Options, c2 o = b) ↔ b.getLsbD 5 = false)

/-! ## Status, words, scaler, register map, response word -/

/-- R91, R92, R99: the three bits, the predicate as a conjunction and as the mask test, its 32 byte values, the eight
rows of the truth table, and that the other five bits of the byte change nothing. -/
def Obligations.StatusPredicateIsTheMaskTest : Prop :=
  (∀ s : Byte,
    (mh s = true ↔ s &&& 0x08#8 ≠ 0#8) ∧ (ml s = true ↔ s &&& 0x10#8 ≠ 0#8) ∧ (md s = true ↔ s &&& 0x20#8 ≠ 0#8) ∧
    (statusOk s = true ↔ md s = true ∧ mh s = false ∧ ml s = false) ∧
    (statusOk s = true ↔ s &&& 0x38#8 = 0x20#8)) ∧
  ((List.range 256).filter fun n => statusOk (BitVec.ofNat 8 n)).length = 32 ∧
  (statusOk 0x00#8 = false ∧ statusOk 0x08#8 = false ∧ statusOk 0x10#8 = false ∧ statusOk 0x18#8 = false ∧
    statusOk 0x20#8 = true ∧ statusOk 0x28#8 = false ∧ statusOk 0x30#8 = false ∧ statusOk 0x38#8 = false) ∧
  ∀ s : Byte, mh (s &&& 0x38#8) = mh s ∧ ml (s &&& 0x38#8) = ml s ∧ md (s &&& 0x38#8) = md s ∧
    statusOk (s &&& 0x38#8) = statusOk s

/-- R100: the word is `b0 * 256 + b1`, unsigned, with the first byte received in bits 15:8. -/
def Obligations.TwoByteWordsAreBigEndian : Prop :=
  ∀ b0 b1 : Byte, (word16 b0 b1).toNat = b0.toNat * 256 + b1.toNat ∧ (word16 b0 b1).extractLsb' 8 8 = b0

/-- R109 and R110 (a), (b): the scaled value is `r * 45` with no overflow, it is exactly the degrees of D0's formula in
units of 1/512, and it is strictly increasing. -/
def Obligations.ScalerIsExactAndIncreasing : Prop :=
  (∀ r : Half, (scale r).toNat = r.toNat * 45 ∧ (scale r).toNat ≤ 2949075 ∧
    ((scale r).toNat : ℚ) / 512 = (r.toNat : ℚ) / 4096 * 360) ∧
  ∀ r q : Half, r.toNat < q.toNat → (scale r).toNat < (scale q).toNat

/-- R111: under the device contract the degrees stay below a full turn; past it they are 360 or more, not wrapped,
up to 2949075 units of 1/512 degree. -/
def Obligations.DegreesStayBelowAFullTurnUnderTheContract : Prop :=
  ∀ r : Half,
    (r.toNat ≤ 4095 → (scale r).toNat ≤ 184275 ∧ (scale r).toNat < 360 * 512) ∧
    (4096 ≤ r.toNat → 360 * 512 ≤ (scale r).toNat ∧ (scale r).toNat ≤ 2949075)

/-- R39: the register-address decoder. -/
def Obligations.RegisterAddressDecoderTable : Prop :=
  rad .conf = ⟨Config.regConf, 2, .writeAndRead⟩ ∧ rad .status = ⟨Config.regStatus, 1, .readOnly⟩ ∧
  rad .agc = ⟨Config.regAgc, 1, .readOnly⟩ ∧ rad .angle = ⟨Config.regAngle, 2, .readOnly⟩

/-- R48: the sequence table, every row with its transaction, its latches and what follows it. -/
def Obligations.SequenceTableRows : Prop :=
  ∀ o : Options,
    let rows := fun (op : Op) (opt : Option Options) =>
      (Machine.sequence op).map fun row => (rowTransaction row opt, row.target, row.advance)
    rows .configure (some o) = [(some (busWrite [Config.regConf, c1 o, c2 o]), .nowhere, .respond)] ∧
    rows .getStatus none =
      [(some (busWrite [Config.regStatus]), .nowhere, .next), (some (busRead 1), .status, .next),
        (some (busWrite [Config.regAgc]), .nowhere, .next), (some (busRead 1), .agc, .respond)] ∧
    rows .isOk none =
      [(some (busWrite [Config.regStatus]), .nowhere, .next), (some (busRead 1), .status, .respond)] ∧
    rows .getRawAngle none =
      [(some (busWrite [Config.regAngle]), .nowhere, .next), (some (busRead 2), .hiLo, .respond)] ∧
    rows .getAngleDeg none =
      [(some (busWrite [Config.regStatus]), .nowhere, .next), (some (busRead 1), .status, .gate),
        (some (busWrite [Config.regAngle]), .nowhere, .next), (some (busRead 2), .hiLo, .respond)] ∧
    rows .getAngleDegFast none =
      [(some (busWrite [Config.regAngle]), .nowhere, .next), (some (busRead 2), .hiLo, .respond)] ∧
    rows .getRawConfig none =
      [(some (busWrite [Config.regConf]), .nowhere, .next), (some (busRead 2), .hiLo, .respond)]

/-- R66 and R125: `RSP[2:0]` is the code and `RSP[24:3]` the data; codes 5, 6 and 7 are never produced; a response
other than `OK` has data 0; only `TRANSPORT_ERROR` carries an error; and the word with the error determines the
response, so `UNAVAILABLE` is never an angle. -/
def Obligations.ResponseWordDeterminesTheResponse : Prop :=
  (∀ r : Response,
    r.word.extractLsb' 0 3 = r.code ∧ r.word.extractLsb' 3 22 = r.data ∧ r.code.toNat ≤ 4 ∧
    (r.code ≠ 0#3 → r.data = 0#22) ∧ (r.err ≠ none ↔ r.code = 2#3)) ∧
  ∀ r q : Response, r.word = q.word → r.err = q.err → r = q

/-- R67: where each result stands in the data of an `OK` response; bits not listed are 0. -/
def Obligations.OkDataLayout : Prop :=
  (∀ (d l h : Bool) (g : Byte),
    (packStatus d l h g).extractLsb' 0 8 = g ∧ (packStatus d l h g).getLsbD 8 = h ∧
    (packStatus d l h g).getLsbD 9 = l ∧ (packStatus d l h g).getLsbD 10 = d ∧
    (packStatus d l h g).extractLsb' 11 11 = 0#11) ∧
  (∀ b : Bool, (packOk b).getLsbD 0 = b ∧ (packOk b).extractLsb' 1 21 = 0#21) ∧
  (∀ w : Half, (packHalf w).extractLsb' 0 16 = w ∧ (packHalf w).extractLsb' 16 6 = 0#6)

/-! ## Reset and the command port -/

/-- R33: what reset leaves. -/
def Obligations.ResetLeavesNothingLatched : Prop :=
  State.reset.constructed = false ∧ State.reset.busy = false ∧ State.reset.curOp = none ∧ State.reset.opt = none ∧
  State.reset.stepIdx = none ∧ State.reset.latStatus = none ∧ State.reset.latAgc = none ∧ State.reset.latHi = none ∧
  State.reset.latLo = none ∧ State.reset.rsp = none ∧ State.reset.bus = none ∧ State.reset.trace = []

/-- R137 and R139: RESET, idle or busy, puts the block at its reset values; no transaction is issued and no response is
delivered. That it also clears the two records and leaves the transport's later answers in place is the model's choice
(assumption logs 7 and 8). -/
def Obligations.ResetEventRestoresResetState : Prop :=
  ∀ (s : State) (more : List HostEvent), s.host = .reset :: more →
    step s = .next { State.reset with host := more, answers := s.answers }

/-- A step runs the decoded command: on an idle block, a presented word that decodes to `i` is taken off the command
port and `i` is executed (R62, R155). -/
def Obligations.StepRunsTheDecodedCommand : Prop :=
  ∀ (s : State) (w : CommandWord) (more : List HostEvent) (i : Instr),
    s.busy = false → s.host = .command w :: more → decode w = .ok i →
    step s = exec i { s with host := more }

/-- R124: `op = 7` is answered `ILLEGAL_OP` with data 0 by an idle block, constructed or not; no transaction, no change
of state. A busy block does not answer it until it is idle (assumption log 15). -/
def Obligations.ReservedOpIsRefused : Prop :=
  ∀ (s : State) (w : CommandWord) (more : List HostEvent),
    s.busy = false → s.host = .command w :: more → opField w = 7#3 →
    step s = .next { s with host := more, rsp := some .illegalOp, responses := s.responses ++ [.illegalOp] } ∧
    Response.illegalOp.code = 4#3 ∧ Response.illegalOp.data = 0#22

/-- R123: a query while `constructed` = 0 is answered `NOT_CONSTRUCTED` with no transaction and no change of state;
CONFIGURE never is; and after a CONFIGURE that failed, queries are still refused. -/
def Obligations.QueriesAreRefusedUntilConstructed : Prop :=
  ∀ s : State, s.busy = false → s.constructed = false →
    (∀ i : Instr, i.IsQuery →
      exec i s = .next { s with rsp := some .notConstructed, responses := s.responses ++ [.notConstructed] }) ∧
    (∀ (i : Instr) (t : State), ¬ i.IsQuery → exec i s = .next t → t.rsp ≠ some .notConstructed) ∧
    (∀ (i q : Instr) (e : TransportErr) (rest : List Answer), ¬ i.IsQuery → q.IsQuery →
      s.answers = .reply (.err e) :: rest →
      ∃ t u, exec i s = .next t ∧ t.rsp = some (.transportError e) ∧
        exec q t = .next u ∧ u.rsp = some .notConstructed ∧ u.trace = t.trace) ∧
    Response.notConstructed.code = 3#3 ∧ Response.notConstructed.data = 0#22

/-- R143: a command presented while the block is busy is not accepted, not queued and not answered: the block does
what it would do with no command presented, and the command is still presented afterwards. This holds of the reserved
code too (assumption log 15). -/
def Obligations.BusyBlockAcceptsNoCommand : Prop :=
  (∀ (i : Instr) (s : State), s.busy = true → exec i s = .next s) ∧
  ∀ (s t : State) (w : CommandWord) (more : List HostEvent), s.busy = true → s.host = .command w :: more →
    step s = .next t →
    t.host = s.host ∧ step { s with host := [] } = .next { t with host := [] }

/-- R138: an idle block with no command presented waits, and issues nothing (a step to the same state is how the model
says that no step is enabled, assumption log 5). -/
def Obligations.IdleBlockWaitsForACommand : Prop :=
  ∀ s : State, s.busy = false → s.host = [] → step s = .next s

/-- R131: if the outstanding transaction never returns, the operation never responds, `busy` stays 1 and no command is
accepted, for any number of steps, unless the host raises RESET (the model's steps then change nothing, assumption
log 5). -/
def Obligations.HungTransactionHangsTheBlock : Prop :=
  ∀ (n : Nat) (s : State), s.busy = true → s.answers = [] → s.host.head? ≠ some .reset →
    Host.Core.run core n s = .next s

/-! ## What each command does -/

/-- R83, R85, R87, R88, R89: CONFIGURE issues one write of `[REG_CONF, C1, C2]`, constructed or not; on `ok` it sets
`constructed` and responds `OK` with data 0; on `err(e)` it responds `TRANSPORT_ERROR` with `e` and leaves
`constructed` as it was. -/
def Obligations.ConfigureWritesTheConfiguration : Prop :=
  ∀ (h pm wd fft sf pwm os : Int) (s : State) (rest : List Answer), s.busy = false →
    let frame : List Byte := [Config.regConf,
      BitVec.ofNat 8 ((fld wd 1 <<< 5) ||| (fld fft 7 <<< 2) ||| fld sf 3),
      BitVec.ofNat 8 ((fld pwm 3 <<< 6) ||| (fld os 1 <<< 4) ||| (fld h 3 <<< 2) ||| fld pm 3)]
    (∀ b0 b1 : Byte, s.answers = .reply (.ok b0 b1) :: rest →
      exec (.configure h pm wd fft sf pwm os) s =
        .next (State.ended { s with constructed := true } [wrote frame] (.ok 0) rest)) ∧
    (∀ e : TransportErr, s.answers = .reply (.err e) :: rest →
      exec (.configure h pm wd fft sf pwm os) s =
        .next (s.ended [failed (busWrite frame) e] (.transportError e) rest))

/-- R93, R94, R95: GET_STATUS reads the status, then the AGC, whatever the status was, and reports all four fields; a
failing transaction ends it with no partial result. -/
def Obligations.GetStatusReportsAllFourFields : Prop :=
  ∀ (s : State) (rest : List Answer) (x0 x1 x2 y0 y1 y2 st g : Byte) (e : TransportErr),
    s.busy = false → s.constructed = true →
    let w0 := Answer.reply (.ok x0 x1)
    let r0 := Answer.reply (.ok st x2)
    let w1 := Answer.reply (.ok y0 y1)
    let r1 := Answer.reply (.ok g y2)
    let bad := Answer.reply (.err e)
    (s.answers = w0 :: r0 :: w1 :: r1 :: rest →
      exec .getStatus s = .next (s.ended
        [wrote [Config.regStatus], readIn [st], wrote [Config.regAgc], readIn [g]]
        (.ok (BitVec.ofNat 22 (g.toNat + (if st.getLsbD 3 then 256 else 0) + (if st.getLsbD 4 then 512 else 0) +
          (if st.getLsbD 5 then 1024 else 0)))) rest)) ∧
    (s.answers = bad :: rest →
      exec .getStatus s = .next (s.ended [failed (busWrite [Config.regStatus]) e] (.transportError e) rest)) ∧
    (s.answers = w0 :: bad :: rest →
      exec .getStatus s = .next (s.ended [wrote [Config.regStatus], failed (busRead 1) e] (.transportError e) rest)) ∧
    (s.answers = w0 :: r0 :: bad :: rest →
      exec .getStatus s = .next (s.ended
        [wrote [Config.regStatus], readIn [st], failed (busWrite [Config.regAgc]) e] (.transportError e) rest)) ∧
    (s.answers = w0 :: r0 :: w1 :: bad :: rest →
      exec .getStatus s = .next (s.ended
        [wrote [Config.regStatus], readIn [st], wrote [Config.regAgc], failed (busRead 1) e]
        (.transportError e) rest))

/-- R96, R98: IS_OK reads the status and reports the predicate in bit 0; a failure is never reported as "not ok". -/
def Obligations.IsOkReportsThePredicate : Prop :=
  ∀ (s : State) (rest : List Answer) (x0 x1 x2 st : Byte) (e : TransportErr),
    s.busy = false → s.constructed = true →
    let w0 := Answer.reply (.ok x0 x1)
    let bad := Answer.reply (.err e)
    (s.answers = w0 :: .reply (.ok st x2) :: rest →
      exec .isOk s = .next (s.ended [wrote [Config.regStatus], readIn [st]]
        (.ok (if st &&& 0x38#8 = 0x20#8 then 1 else 0)) rest)) ∧
    (s.answers = bad :: rest →
      exec .isOk s = .next (s.ended [failed (busWrite [Config.regStatus]) e] (.transportError e) rest)) ∧
    (s.answers = w0 :: bad :: rest →
      exec .isOk s = .next (s.ended [wrote [Config.regStatus], failed (busRead 1) e] (.transportError e) rest))

/-- R101, R102, R103: GET_RAW_ANGLE reads the angle and returns all 16 bits as received, with no mask and no status
check. -/
def Obligations.GetRawAngleReturnsTheWordUnmasked : Prop :=
  ∀ (s : State) (rest : List Answer) (x0 x1 b0 b1 : Byte) (e : TransportErr),
    s.busy = false → s.constructed = true →
    let w0 := Answer.reply (.ok x0 x1)
    let bad := Answer.reply (.err e)
    (s.answers = w0 :: .reply (.ok b0 b1) :: rest →
      exec .getRawAngle s = .next (s.ended [wrote [Config.regAngle], readIn [b0, b1]]
        (.ok (BitVec.ofNat 22 (b0.toNat * 256 + b1.toNat))) rest)) ∧
    (s.answers = bad :: rest →
      exec .getRawAngle s = .next (s.ended [failed (busWrite [Config.regAngle]) e] (.transportError e) rest)) ∧
    (s.answers = w0 :: bad :: rest →
      exec .getRawAngle s = .next (s.ended [wrote [Config.regAngle], failed (busRead 2) e] (.transportError e) rest))

/-- R104, R106: GET_ANGLE_DEG with a status that is `ok` goes on to the angle pair and returns the scaled word; a
failure in any of the four transactions ends it with `TRANSPORT_ERROR`, never `UNAVAILABLE`. -/
def Obligations.GetAngleDegReturnsDegreesWhenOk : Prop :=
  ∀ (s : State) (rest : List Answer) (x0 x1 x2 y0 y1 st b0 b1 : Byte) (e : TransportErr),
    s.busy = false → s.constructed = true → st &&& 0x38#8 = 0x20#8 →
    let w0 := Answer.reply (.ok x0 x1)
    let r0 := Answer.reply (.ok st x2)
    let w1 := Answer.reply (.ok y0 y1)
    let bad := Answer.reply (.err e)
    (s.answers = w0 :: r0 :: w1 :: .reply (.ok b0 b1) :: rest →
      exec .getAngleDeg s = .next (s.ended
        [wrote [Config.regStatus], readIn [st], wrote [Config.regAngle], readIn [b0, b1]]
        (.ok (BitVec.ofNat 22 ((b0.toNat * 256 + b1.toNat) * 45))) rest)) ∧
    (s.answers = bad :: rest →
      exec .getAngleDeg s = .next (s.ended [failed (busWrite [Config.regStatus]) e] (.transportError e) rest)) ∧
    (s.answers = w0 :: bad :: rest →
      exec .getAngleDeg s = .next (s.ended [wrote [Config.regStatus], failed (busRead 1) e]
        (.transportError e) rest)) ∧
    (s.answers = w0 :: r0 :: bad :: rest →
      exec .getAngleDeg s = .next (s.ended
        [wrote [Config.regStatus], readIn [st], failed (busWrite [Config.regAngle]) e] (.transportError e) rest)) ∧
    (s.answers = w0 :: r0 :: w1 :: bad :: rest →
      exec .getAngleDeg s = .next (s.ended
        [wrote [Config.regStatus], readIn [st], wrote [Config.regAngle], failed (busRead 2) e]
        (.transportError e) rest))

/-- R105: GET_ANGLE_DEG with a status that is not `ok` responds `UNAVAILABLE` after the status pair and issues no angle
transaction; `UNAVAILABLE` is another response than `OK` with any data. -/
def Obligations.GetAngleDegShortCircuitsWhenNotOk : Prop :=
  ∀ (s : State) (rest : List Answer) (x0 x1 x2 st : Byte),
    s.busy = false → s.constructed = true → st &&& 0x38#8 ≠ 0x20#8 →
    s.answers = .reply (.ok x0 x1) :: .reply (.ok st x2) :: rest →
    exec .getAngleDeg s = .next (s.ended [wrote [Config.regStatus], readIn [st]] .unavailable rest) ∧
    ∀ d : Data, Response.unavailable.word ≠ (Response.ok d).word

/-- R107, with R103's failures: GET_ANGLE_DEG_FAST reads and scales the angle with no status check. -/
def Obligations.GetAngleDegFastReturnsDegreesUngated : Prop :=
  ∀ (s : State) (rest : List Answer) (x0 x1 b0 b1 : Byte) (e : TransportErr),
    s.busy = false → s.constructed = true →
    let w0 := Answer.reply (.ok x0 x1)
    let bad := Answer.reply (.err e)
    (s.answers = w0 :: .reply (.ok b0 b1) :: rest →
      exec .getAngleDegFast s = .next (s.ended [wrote [Config.regAngle], readIn [b0, b1]]
        (.ok (BitVec.ofNat 22 ((b0.toNat * 256 + b1.toNat) * 45))) rest)) ∧
    (s.answers = bad :: rest →
      exec .getAngleDegFast s = .next (s.ended [failed (busWrite [Config.regAngle]) e] (.transportError e) rest)) ∧
    (s.answers = w0 :: bad :: rest →
      exec .getAngleDegFast s = .next (s.ended [wrote [Config.regAngle], failed (busRead 2) e]
        (.transportError e) rest))

/-- R112, R113, R114: GET_RAW_CONFIG reads the configuration register and returns the 16 bits as received, first byte
high. -/
def Obligations.GetRawConfigReturnsTheWordAsReceived : Prop :=
  ∀ (s : State) (rest : List Answer) (x0 x1 b0 b1 : Byte) (e : TransportErr),
    s.busy = false → s.constructed = true →
    let w0 := Answer.reply (.ok x0 x1)
    let bad := Answer.reply (.err e)
    (s.answers = w0 :: .reply (.ok b0 b1) :: rest →
      exec .getRawConfig s = .next (s.ended [wrote [Config.regConf], readIn [b0, b1]]
        (.ok (BitVec.ofNat 22 (b0.toNat * 256 + b1.toNat))) rest)) ∧
    (s.answers = bad :: rest →
      exec .getRawConfig s = .next (s.ended [failed (busWrite [Config.regConf]) e] (.transportError e) rest)) ∧
    (s.answers = w0 :: bad :: rest →
      exec .getRawConfig s = .next (s.ended [wrote [Config.regConf], failed (busRead 2) e] (.transportError e) rest))

/-- R108: for the same two angle bytes the gated query, when it gets past the gate, and the ungated one respond the
same, the degrees of D0's three examples among them. -/
def Obligations.DegreeQueriesAgree : Prop :=
  (∀ (s t : State) (x0 x1 x2 y0 y1 z0 z1 st b0 b1 : Byte) (rest more : List Answer),
    s.busy = false → t.busy = false → s.constructed = true → t.constructed = true → st &&& 0x38#8 = 0x20#8 →
    s.answers = .reply (.ok x0 x1) :: .reply (.ok st x2) :: .reply (.ok y0 y1) :: .reply (.ok b0 b1) :: rest →
    t.answers = .reply (.ok z0 z1) :: .reply (.ok b0 b1) :: more →
    ∃ s' t', exec .getAngleDeg s = .next s' ∧ exec .getAngleDegFast t = .next t' ∧
      s'.rsp = some (.ok (scale (word16 b0 b1))) ∧ t'.rsp = s'.rsp) ∧
  scale (word16 0x08 0x00) = 92160#22 ∧ scale (word16 0x00 0x00) = 0#22 ∧ scale (word16 0x0F 0xFF) = 184275#22

/-! ## Whole-machine statements -/

/-- The sequencer carries out the spec's pseudocode: for every command and every list of replies, if the pseudocode of
R83, R93, R96, R101, R104, R107 or R112 ends on them, the block ends in the same response with the same transactions,
leaves the other replies alone, and sets `constructed` only for a CONFIGURE that responded `OK`. -/
def Obligations.SequencerCarriesOutThePseudocode : Prop :=
  ∀ (i : Instr) (s : State) (rs : List Reply) (tail : List Answer) (d : Ending),
    s.Accepts i → s.answers = rs.map .reply ++ tail → Pseudo.run i rs = some d →
    exec i s = .next (State.ended
      { s with constructed := s.constructed || (decide (i.op = .configure) && decide (d.response = .ok 0)) }
      d.entries d.response (d.rest.map .reply ++ tail))

/-- R49: when the replies run out before the pseudocode ends, a transaction is outstanding, the block is busy, and no
response has been delivered. That the response port holds nothing meanwhile is the model's choice (assumption log 9: it
is cleared at acceptance), and so is the list of answers that is then empty (assumption log 3). -/
def Obligations.MissingAnswerLeavesATransactionOutstanding : Prop :=
  ∀ (i : Instr) (s : State) (rs : List Reply),
    s.Accepts i → s.answers = rs.map .reply → Pseudo.run i rs = none →
    ∃ t, exec i s = .next t ∧ t.busy = true ∧ t.bus ≠ none ∧ t.answers = [] ∧ t.rsp = none ∧
      t.constructed = s.constructed ∧ t.host = s.host ∧ t.responses = s.responses

/-- R154: when the transport's answers come makes no difference: if a step that saw only the first replies left the
block busy, then the next step with the remaining answers ends exactly where one step that saw all of them ends. -/
def Obligations.ArrivalTimesDoNotMatter : Prop :=
  ∀ (s t : State) (rs : List Reply) (more : List Answer),
    s.host.head? ≠ some .reset → step { s with answers := rs.map .reply } = .next t → t.busy = true →
    t.host.head? ≠ some .reset →
    step { s with answers := rs.map .reply ++ more } = step { t with answers := more }

/-- R118: the block does not inspect, classify or translate an error value: renaming the transport's errors renames the
errors in the responses and in the trace, and changes nothing else. -/
def Obligations.ErrorValuesPassThroughUninspected : Prop :=
  ∀ (f : TransportErr → TransportErr) (s : State), step (s.mapErr f) = Result.map (State.mapErr f) (step s)

/-- Every step from a state that meets the invariant of R34 keeps it. -/
def Obligations.StepKeepsTheInvariant : Prop :=
  ∀ s t : State, s.Inv → step s = .next t → t.Inv

/-- Reset meets the invariant. -/
def Obligations.ResetMeetsTheInvariant : Prop := State.reset.Inv

/-- R116: nothing else can end an operation: under the invariant a step is always a next state, never a fault and never
a refusal of the model, whatever the host presents and whatever the transport answers. -/
def Obligations.InvariantBlockNeverStops : Prop :=
  ∀ s : State, s.Inv → ∃ t, step s = .next t

/-- Every well-formed command keeps the invariant and answers a next state. -/
def Obligations.CommandsKeepTheInvariant : Prop :=
  ∀ (i : Instr) (s : State), i.wellFormed = true → s.Inv → ∃ t, exec i s = .next t ∧ t.Inv

/-- R30, R35, R42, R43: from a state that meets the invariant, a step adds to the trace only register-select writes,
the configuration write, and one- or two-byte reads that received exactly that many bytes, all to `DEV_ADDR`. -/
def Obligations.EveryTransactionIsPermitted : Prop :=
  ∀ s t : State, s.Inv → s.TracePermitted → step s = .next t → t.TracePermitted

/-- R34 (d) and R16: `constructed` goes from 1 to 0 only by RESET, and from 0 to 1 only when a CONFIGURE responds
`OK`. -/
def Obligations.ConstructedChangesOnlyByConfigureAndReset : Prop :=
  ∀ s t : State, step s = .next t →
    (s.constructed = true → s.host.head? ≠ some .reset → t.constructed = true) ∧
    (s.constructed = false → t.constructed = true →
      t.busy = false ∧ t.rsp = some (.ok 0) ∧
      ((s.busy = true ∧ s.curOp = some .configure) ∨
        (s.busy = false ∧ ∃ w more, s.host = .command w :: more ∧ opField w = 0#3)))

/-- R66, R17, R130: a step that is not a RESET delivers at most one response, and when it does the block is idle
afterwards; and a busy block becomes idle, and an idle block that takes a command stays idle, only by delivering one. -/
def Obligations.StepDeliversAtMostOneResponse : Prop :=
  ∀ s t : State, s.host.head? ≠ some .reset → step s = .next t →
    (t.responses = s.responses ∨
      ∃ r, t.responses = s.responses ++ [r] ∧ t.rsp = some r ∧ t.busy = false) ∧
    ((s.busy = true ∨ ∃ w more, s.host = .command w :: more) → t.busy = false →
      ∃ r, t.responses = s.responses ++ [r] ∧ t.rsp = some r)

/-- R58: the transactions an accepted command has issued and that have returned are a prefix of its sequence in R48,
every one of them but the last returned `ok`, and none is repeated. -/
def Obligations.TraceIsAPrefixOfTheSequence : Prop :=
  ∀ (i : Instr) (s t : State), s.busy = false → exec i s = .next t →
    ∃ es : List TraceEntry, t.trace = s.trace ++ es ∧
      (es.map fun e => some e.tx) <+: (Machine.sequence i.op).map (rowTransaction · i.opt) ∧
      ∀ e ∈ es.dropLast, e.succeeded = true

/-- R18, R49, R58 for an operation already in progress: a step goes on from the outstanding transaction, never back. -/
def Obligations.ResumedTraceContinuesTheSequence : Prop :=
  ∀ (s t : State) (op : Op) (k : BitVec 3), s.busy = true → s.BusyInv op k → s.host.head? ≠ some .reset →
    step s = .next t →
    ∃ es : List TraceEntry, t.trace = s.trace ++ es ∧
      (es.map fun e => some e.tx) <+: ((Machine.sequence op).drop k.toNat).map (rowTransaction · s.opt) ∧
      ∀ e ∈ es.dropLast, e.succeeded = true

/-- R119: a command responds `TRANSPORT_ERROR` with `e` exactly when a transaction of it failed, that transaction is
the last in its trace and failed with that `e`, and every one before it succeeded. -/
def Obligations.TransportErrorIsTheLastTransaction : Prop :=
  ∀ (i : Instr) (s t : State), s.busy = false → exec i s = .next t →
    ∃ es : List TraceEntry, t.trace = s.trace ++ es ∧
      (∀ e, t.rsp = some (.transportError e) ↔ ∃ tx, es.getLast? = some (failed tx e)) ∧
      ((∃ e, t.rsp = some (.transportError e)) ↔ ∃ x ∈ es, x.succeeded = false)

/-- R122: `UNAVAILABLE` is a response of GET_ANGLE_DEG alone, after exactly the status pair, both `ok`, with a status
that is not `ok`; and so for an operation already in progress. -/
def Obligations.UnavailableComesOnlyFromTheGate : Prop :=
  (∀ (i : Instr) (s t : State), s.busy = false → exec i s = .next t → t.rsp = some .unavailable →
    i = .getAngleDeg ∧
      ∃ st, statusOk st = false ∧ t.trace = s.trace ++ [wrote [Config.regStatus], readIn [st]]) ∧
  ∀ (s t : State) (op : Op) (k : BitVec 3), s.busy = true → s.BusyInv op k → s.host.head? ≠ some .reset →
    step s = .next t → t.rsp = some .unavailable →
    op = .getAngleDeg ∧ k.toNat ≤ 1 ∧ ∃ st, statusOk st = false ∧ t.trace.getLast? = some (readIn [st])

/-- R30: a query writes no register: each transaction it issues is the one-byte select of one of the four registers or
a read. -/
def Obligations.QueriesWriteNoRegister : Prop :=
  ∀ (i : Instr) (s t : State), s.busy = false → i.IsQuery → exec i s = .next t →
    ∃ es : List TraceEntry, t.trace = s.trace ++ es ∧
      ∀ e ∈ es, (∃ r : RegSel, e.tx = busWrite [(rad r).address]) ∨ ∃ n, e.tx = busRead n

/-- The frame of the six queries: `constructed` and the host's events are as before, the trace and the responses only
grow, and the transport's answers are taken from the front (R16: only CONFIGURE and RESET write `constructed`; R117: a
failure writes no persistent state; R32). That the host's events and the answers stand in the state is the model's
choice (assumption logs 6 and 3). -/
def Obligations.QueryFrame : Prop :=
  ∀ (i : Instr) (s t : State), i.IsQuery → exec i s = .next t →
    t.constructed = s.constructed ∧ t.host = s.host ∧ s.trace <+: t.trace ∧ s.responses <+: t.responses ∧
      t.answers <:+ s.answers

/-- The frame of CONFIGURE: the host's events are as before, the trace and the responses only grow, the transport's
answers are taken from the front, and `constructed` becomes 1 when the response is `OK` and is otherwise as before (R88,
R89). The host's events and the answers stand in the state as in the frame of the queries (assumption logs 6 and 3). -/
def Obligations.ConfigureFrame : Prop :=
  ∀ (i : Instr) (s t : State), s.busy = false → ¬ i.IsQuery → exec i s = .next t →
    t.host = s.host ∧ s.trace <+: t.trace ∧ s.responses <+: t.responses ∧ t.answers <:+ s.answers ∧
      (t.rsp = some (.ok 0) → t.constructed = true) ∧ (t.rsp ≠ some (.ok 0) → t.constructed = s.constructed)

/-- R23 and R97: nothing survives an operation but `constructed`: two idle blocks that agree on it, given the same
answers, run a command to the same block state, the same new transactions and the same new responses, whatever
happened on them before. -/
def Obligations.NothingSurvivesAnOperationButConstructed : Prop :=
  ∀ (i : Instr) (s u s' : State), s.Inv → u.Inv → s.busy = false → u.busy = false →
    s.constructed = u.constructed → s.answers = u.answers → exec i s = .next s' →
    ∃ (u' : State) (es : List TraceEntry) (rs : List Response), exec i u = .next u' ∧
      s'.trace = s.trace ++ es ∧ u'.trace = u.trace ++ es ∧
      s'.responses = s.responses ++ rs ∧ u'.responses = u.responses ++ rs ∧
      u' = { s' with trace := u'.trace, responses := u'.responses, host := u'.host }

/-- R155, with its premise that every transaction returns: if the next four answers are replies, any command presented
to an idle block ends in this step, with one response. -/
def Obligations.FourRepliesEndAnyCommand : Prop :=
  ∀ (i : Instr) (s : State) (r0 r1 r2 r3 : Reply) (rest : List Answer), s.busy = false →
    s.answers = .reply r0 :: .reply r1 :: .reply r2 :: .reply r3 :: rest →
    ∃ t r, exec i s = .next t ∧ t.busy = false ∧ t.rsp = some r ∧ t.responses = s.responses ++ [r]

/-- R155 for an operation already in progress: four replies end it. -/
def Obligations.FourRepliesEndAnOperationInProgress : Prop :=
  ∀ (s : State) (r0 r1 r2 r3 : Reply) (rest : List Answer), s.Inv → s.busy = true →
    s.host.head? ≠ some .reset → s.answers = .reply r0 :: .reply r1 :: .reply r2 :: .reply r3 :: rest →
    ∃ t r, step s = .next t ∧ t.busy = false ∧ t.rsp = some r ∧ t.responses = s.responses ++ [r]

/-- R115: the transactions of a command that ends without a transport error: the whole sequence if it responds `OK`,
the two of the status pair if it responds `UNAVAILABLE`, none if it is refused. -/
def Obligations.TransactionCounts : Prop :=
  ∀ (i : Instr) (s t : State), s.busy = false → exec i s = .next t →
    (∀ d, t.rsp = some (.ok d) →
      t.trace.length = s.trace.length +
        (match i.op with
          | .configure => 1
          | .getStatus => 4
          | .isOk => 2
          | .getRawAngle => 2
          | .getAngleDeg => 4
          | .getAngleDegFast => 2
          | .getRawConfig => 2)) ∧
    (t.rsp = some .unavailable → t.trace.length = s.trace.length + 2) ∧
    (t.rsp = some .notConstructed → t.trace.length = s.trace.length)

/-- R49 and R131 for an answer `later`, with which the model says that the transport has not returned yet (assumption
logs 5 and 14): on a busy block a step takes it off the list and changes nothing else; and a step, of a busy block or
one that accepts a command, that meets it while a transaction is outstanding stops there, where a step that saw only the
replies before it stops, with the answers behind it still to come. -/
def Obligations.LaterAnswerKeepsTheTransactionOutstanding : Prop :=
  (∀ (s : State) (rest : List Answer), s.busy = true → s.answers = .later :: rest → s.host.head? ≠ some .reset →
    step s = .next { s with answers := rest }) ∧
  ∀ (s t : State) (rs : List Reply) (rest : List Answer),
    s.host.head? ≠ some .reset → step { s with answers := rs.map .reply } = .next t → t.busy = true →
    step { s with answers := rs.map .reply ++ .later :: rest } = .next { t with answers := rest }
end

