-- ==== Sys2Proof/Laws/State.lean ====
section
/-! SUPPORT. What each update of the state does to each field, one lemma a field, so that no later proof unfolds an
update. -/

namespace Sys2Proof.Machine

namespace State

variable (s : State)

/-! ### `respond` -/

@[simp] theorem respond_constructed (r : Response) : (s.respond r).constructed = s.constructed := rfl
@[simp] theorem respond_busy (r : Response) : (s.respond r).busy = false := rfl
@[simp] theorem respond_curOp (r : Response) : (s.respond r).curOp = none := rfl
@[simp] theorem respond_opt (r : Response) : (s.respond r).opt = none := rfl
@[simp] theorem respond_stepIdx (r : Response) : (s.respond r).stepIdx = none := rfl
@[simp] theorem respond_latStatus (r : Response) : (s.respond r).latStatus = none := rfl
@[simp] theorem respond_latAgc (r : Response) : (s.respond r).latAgc = none := rfl
@[simp] theorem respond_latHi (r : Response) : (s.respond r).latHi = none := rfl
@[simp] theorem respond_latLo (r : Response) : (s.respond r).latLo = none := rfl
@[simp] theorem respond_bus (r : Response) : (s.respond r).bus = none := rfl
@[simp] theorem respond_rsp (r : Response) : (s.respond r).rsp = some r := rfl
@[simp] theorem respond_trace (r : Response) : (s.respond r).trace = s.trace := rfl
@[simp] theorem respond_responses (r : Response) : (s.respond r).responses = s.responses ++ [r] := rfl
@[simp] theorem respond_host (r : Response) : (s.respond r).host = s.host := rfl
@[simp] theorem respond_answers (r : Response) : (s.respond r).answers = s.answers := rfl

/-! ### `refuse` -/

@[simp] theorem refuse_constructed (r : Response) : (s.refuse r).constructed = s.constructed := rfl
@[simp] theorem refuse_busy (r : Response) : (s.refuse r).busy = s.busy := rfl
@[simp] theorem refuse_curOp (r : Response) : (s.refuse r).curOp = s.curOp := rfl
@[simp] theorem refuse_opt (r : Response) : (s.refuse r).opt = s.opt := rfl
@[simp] theorem refuse_stepIdx (r : Response) : (s.refuse r).stepIdx = s.stepIdx := rfl
@[simp] theorem refuse_latStatus (r : Response) : (s.refuse r).latStatus = s.latStatus := rfl
@[simp] theorem refuse_latAgc (r : Response) : (s.refuse r).latAgc = s.latAgc := rfl
@[simp] theorem refuse_latHi (r : Response) : (s.refuse r).latHi = s.latHi := rfl
@[simp] theorem refuse_latLo (r : Response) : (s.refuse r).latLo = s.latLo := rfl
@[simp] theorem refuse_bus (r : Response) : (s.refuse r).bus = s.bus := rfl
@[simp] theorem refuse_rsp (r : Response) : (s.refuse r).rsp = some r := rfl
@[simp] theorem refuse_trace (r : Response) : (s.refuse r).trace = s.trace := rfl
@[simp] theorem refuse_responses (r : Response) : (s.refuse r).responses = s.responses ++ [r] := rfl
@[simp] theorem refuse_host (r : Response) : (s.refuse r).host = s.host := rfl
@[simp] theorem refuse_answers (r : Response) : (s.refuse r).answers = s.answers := rfl

/-! ### `construct` -/

@[simp] theorem construct_constructed : (s.construct).constructed = true := rfl
@[simp] theorem construct_busy : (s.construct).busy = s.busy := rfl
@[simp] theorem construct_curOp : (s.construct).curOp = s.curOp := rfl
@[simp] theorem construct_opt : (s.construct).opt = s.opt := rfl
@[simp] theorem construct_stepIdx : (s.construct).stepIdx = s.stepIdx := rfl
@[simp] theorem construct_latStatus : (s.construct).latStatus = s.latStatus := rfl
@[simp] theorem construct_latAgc : (s.construct).latAgc = s.latAgc := rfl
@[simp] theorem construct_latHi : (s.construct).latHi = s.latHi := rfl
@[simp] theorem construct_latLo : (s.construct).latLo = s.latLo := rfl
@[simp] theorem construct_bus : (s.construct).bus = s.bus := rfl
@[simp] theorem construct_rsp : (s.construct).rsp = s.rsp := rfl
@[simp] theorem construct_trace : (s.construct).trace = s.trace := rfl
@[simp] theorem construct_responses : (s.construct).responses = s.responses := rfl
@[simp] theorem construct_host : (s.construct).host = s.host := rfl
@[simp] theorem construct_answers : (s.construct).answers = s.answers := rfl

/-! ### `accept` -/

@[simp] theorem accept_constructed (op : Op) (opt : Option Options) : (s.accept op opt).constructed = s.constructed := rfl
@[simp] theorem accept_busy (op : Op) (opt : Option Options) : (s.accept op opt).busy = true := rfl
@[simp] theorem accept_curOp (op : Op) (opt : Option Options) : (s.accept op opt).curOp = some op := rfl
@[simp] theorem accept_opt (op : Op) (opt : Option Options) : (s.accept op opt).opt = opt := rfl
@[simp] theorem accept_stepIdx (op : Op) (opt : Option Options) : (s.accept op opt).stepIdx = some 0#3 := rfl
@[simp] theorem accept_latStatus (op : Op) (opt : Option Options) : (s.accept op opt).latStatus = none := rfl
@[simp] theorem accept_latAgc (op : Op) (opt : Option Options) : (s.accept op opt).latAgc = none := rfl
@[simp] theorem accept_latHi (op : Op) (opt : Option Options) : (s.accept op opt).latHi = none := rfl
@[simp] theorem accept_latLo (op : Op) (opt : Option Options) : (s.accept op opt).latLo = none := rfl
@[simp] theorem accept_bus (op : Op) (opt : Option Options) : (s.accept op opt).bus = none := rfl
@[simp] theorem accept_rsp (op : Op) (opt : Option Options) : (s.accept op opt).rsp = none := rfl
@[simp] theorem accept_trace (op : Op) (opt : Option Options) : (s.accept op opt).trace = s.trace := rfl
@[simp] theorem accept_responses (op : Op) (opt : Option Options) : (s.accept op opt).responses = s.responses := rfl
@[simp] theorem accept_host (op : Op) (opt : Option Options) : (s.accept op opt).host = s.host := rfl
@[simp] theorem accept_answers (op : Op) (opt : Option Options) : (s.accept op opt).answers = s.answers := rfl

/-! ### `record` -/

@[simp] theorem record_constructed (tx : Transaction) (o : TxOutcome) : (s.record tx o).constructed = s.constructed := rfl
@[simp] theorem record_busy (tx : Transaction) (o : TxOutcome) : (s.record tx o).busy = s.busy := rfl
@[simp] theorem record_curOp (tx : Transaction) (o : TxOutcome) : (s.record tx o).curOp = s.curOp := rfl
@[simp] theorem record_opt (tx : Transaction) (o : TxOutcome) : (s.record tx o).opt = s.opt := rfl
@[simp] theorem record_stepIdx (tx : Transaction) (o : TxOutcome) : (s.record tx o).stepIdx = s.stepIdx := rfl
@[simp] theorem record_latStatus (tx : Transaction) (o : TxOutcome) : (s.record tx o).latStatus = s.latStatus := rfl
@[simp] theorem record_latAgc (tx : Transaction) (o : TxOutcome) : (s.record tx o).latAgc = s.latAgc := rfl
@[simp] theorem record_latHi (tx : Transaction) (o : TxOutcome) : (s.record tx o).latHi = s.latHi := rfl
@[simp] theorem record_latLo (tx : Transaction) (o : TxOutcome) : (s.record tx o).latLo = s.latLo := rfl
@[simp] theorem record_bus (tx : Transaction) (o : TxOutcome) : (s.record tx o).bus = none := rfl
@[simp] theorem record_rsp (tx : Transaction) (o : TxOutcome) : (s.record tx o).rsp = s.rsp := rfl
@[simp] theorem record_trace (tx : Transaction) (o : TxOutcome) : (s.record tx o).trace = s.trace ++ [⟨tx, o⟩] := rfl
@[simp] theorem record_responses (tx : Transaction) (o : TxOutcome) : (s.record tx o).responses = s.responses := rfl
@[simp] theorem record_host (tx : Transaction) (o : TxOutcome) : (s.record tx o).host = s.host := rfl
@[simp] theorem record_answers (tx : Transaction) (o : TxOutcome) : (s.record tx o).answers = s.answers := rfl

/-! ### `resetEvent` -/

@[simp] theorem resetEvent_constructed : (s.resetEvent).constructed = State.reset.constructed := rfl
@[simp] theorem resetEvent_busy : (s.resetEvent).busy = State.reset.busy := rfl
@[simp] theorem resetEvent_curOp : (s.resetEvent).curOp = State.reset.curOp := rfl
@[simp] theorem resetEvent_opt : (s.resetEvent).opt = State.reset.opt := rfl
@[simp] theorem resetEvent_stepIdx : (s.resetEvent).stepIdx = State.reset.stepIdx := rfl
@[simp] theorem resetEvent_latStatus : (s.resetEvent).latStatus = State.reset.latStatus := rfl
@[simp] theorem resetEvent_latAgc : (s.resetEvent).latAgc = State.reset.latAgc := rfl
@[simp] theorem resetEvent_latHi : (s.resetEvent).latHi = State.reset.latHi := rfl
@[simp] theorem resetEvent_latLo : (s.resetEvent).latLo = State.reset.latLo := rfl
@[simp] theorem resetEvent_bus : (s.resetEvent).bus = State.reset.bus := rfl
@[simp] theorem resetEvent_rsp : (s.resetEvent).rsp = State.reset.rsp := rfl
@[simp] theorem resetEvent_trace : (s.resetEvent).trace = State.reset.trace := rfl
@[simp] theorem resetEvent_responses : (s.resetEvent).responses = State.reset.responses := rfl
@[simp] theorem resetEvent_host : (s.resetEvent).host = s.host := rfl
@[simp] theorem resetEvent_answers : (s.resetEvent).answers = s.answers := rfl

/-! ### `dropEvent` -/

@[simp] theorem dropEvent_constructed : (s.dropEvent).constructed = s.constructed := rfl
@[simp] theorem dropEvent_busy : (s.dropEvent).busy = s.busy := rfl
@[simp] theorem dropEvent_curOp : (s.dropEvent).curOp = s.curOp := rfl
@[simp] theorem dropEvent_opt : (s.dropEvent).opt = s.opt := rfl
@[simp] theorem dropEvent_stepIdx : (s.dropEvent).stepIdx = s.stepIdx := rfl
@[simp] theorem dropEvent_latStatus : (s.dropEvent).latStatus = s.latStatus := rfl
@[simp] theorem dropEvent_latAgc : (s.dropEvent).latAgc = s.latAgc := rfl
@[simp] theorem dropEvent_latHi : (s.dropEvent).latHi = s.latHi := rfl
@[simp] theorem dropEvent_latLo : (s.dropEvent).latLo = s.latLo := rfl
@[simp] theorem dropEvent_bus : (s.dropEvent).bus = s.bus := rfl
@[simp] theorem dropEvent_rsp : (s.dropEvent).rsp = s.rsp := rfl
@[simp] theorem dropEvent_trace : (s.dropEvent).trace = s.trace := rfl
@[simp] theorem dropEvent_responses : (s.dropEvent).responses = s.responses := rfl
@[simp] theorem dropEvent_host : (s.dropEvent).host = s.host.drop 1 := rfl
@[simp] theorem dropEvent_answers : (s.dropEvent).answers = s.answers := rfl

/-! ### `withFetchWord` -/

@[simp] theorem withFetchWord_constructed (nbits w : Nat) : (s.withFetchWord nbits w).constructed = s.constructed := rfl
@[simp] theorem withFetchWord_busy (nbits w : Nat) : (s.withFetchWord nbits w).busy = s.busy := rfl
@[simp] theorem withFetchWord_curOp (nbits w : Nat) : (s.withFetchWord nbits w).curOp = s.curOp := rfl
@[simp] theorem withFetchWord_opt (nbits w : Nat) : (s.withFetchWord nbits w).opt = s.opt := rfl
@[simp] theorem withFetchWord_stepIdx (nbits w : Nat) : (s.withFetchWord nbits w).stepIdx = s.stepIdx := rfl
@[simp] theorem withFetchWord_latStatus (nbits w : Nat) : (s.withFetchWord nbits w).latStatus = s.latStatus := rfl
@[simp] theorem withFetchWord_latAgc (nbits w : Nat) : (s.withFetchWord nbits w).latAgc = s.latAgc := rfl
@[simp] theorem withFetchWord_latHi (nbits w : Nat) : (s.withFetchWord nbits w).latHi = s.latHi := rfl
@[simp] theorem withFetchWord_latLo (nbits w : Nat) : (s.withFetchWord nbits w).latLo = s.latLo := rfl
@[simp] theorem withFetchWord_bus (nbits w : Nat) : (s.withFetchWord nbits w).bus = s.bus := rfl
@[simp] theorem withFetchWord_rsp (nbits w : Nat) : (s.withFetchWord nbits w).rsp = s.rsp := rfl
@[simp] theorem withFetchWord_trace (nbits w : Nat) : (s.withFetchWord nbits w).trace = s.trace := rfl
@[simp] theorem withFetchWord_responses (nbits w : Nat) : (s.withFetchWord nbits w).responses = s.responses := rfl
@[simp] theorem withFetchWord_host (nbits w : Nat) : (s.withFetchWord nbits w).host = .command (tableWord nbits w) :: s.host := rfl
@[simp] theorem withFetchWord_answers (nbits w : Nat) : (s.withFetchWord nbits w).answers = s.answers := rfl

/-! ### `latch` changes latches only -/

@[simp] theorem latch_constructed (t : Target) (b0 b1 : Byte) : (s.latch t b0 b1).constructed = s.constructed := by
  cases t <;> rfl
@[simp] theorem latch_busy (t : Target) (b0 b1 : Byte) : (s.latch t b0 b1).busy = s.busy := by
  cases t <;> rfl
@[simp] theorem latch_curOp (t : Target) (b0 b1 : Byte) : (s.latch t b0 b1).curOp = s.curOp := by
  cases t <;> rfl
@[simp] theorem latch_opt (t : Target) (b0 b1 : Byte) : (s.latch t b0 b1).opt = s.opt := by
  cases t <;> rfl
@[simp] theorem latch_stepIdx (t : Target) (b0 b1 : Byte) : (s.latch t b0 b1).stepIdx = s.stepIdx := by
  cases t <;> rfl
@[simp] theorem latch_bus (t : Target) (b0 b1 : Byte) : (s.latch t b0 b1).bus = s.bus := by
  cases t <;> rfl
@[simp] theorem latch_rsp (t : Target) (b0 b1 : Byte) : (s.latch t b0 b1).rsp = s.rsp := by
  cases t <;> rfl
@[simp] theorem latch_trace (t : Target) (b0 b1 : Byte) : (s.latch t b0 b1).trace = s.trace := by
  cases t <;> rfl
@[simp] theorem latch_responses (t : Target) (b0 b1 : Byte) : (s.latch t b0 b1).responses = s.responses := by
  cases t <;> rfl
@[simp] theorem latch_host (t : Target) (b0 b1 : Byte) : (s.latch t b0 b1).host = s.host := by
  cases t <;> rfl
@[simp] theorem latch_answers (t : Target) (b0 b1 : Byte) : (s.latch t b0 b1).answers = s.answers := by
  cases t <;> rfl
@[simp] theorem latch_latStatus (t : Target) (b0 b1 : Byte) :
    (s.latch t b0 b1).latStatus = if t = .status then some b0 else s.latStatus := by
  cases t <;> rfl
@[simp] theorem latch_latAgc (t : Target) (b0 b1 : Byte) :
    (s.latch t b0 b1).latAgc = if t = .agc then some b0 else s.latAgc := by
  cases t <;> rfl
@[simp] theorem latch_latHi (t : Target) (b0 b1 : Byte) :
    (s.latch t b0 b1).latHi = if t = .hiLo then some b0 else s.latHi := by
  cases t <;> rfl
@[simp] theorem latch_latLo (t : Target) (b0 b1 : Byte) :
    (s.latch t b0 b1).latLo = if t = .hiLo then some b1 else s.latLo := by
  cases t <;> rfl

/-! ### The named refusals and the exception are instances -/

theorem raiseTransportError_eq (e : TransportErr) : s.raiseTransportError e = s.respond (.transportError e) := rfl

theorem refuseIllegal_eq : s.refuseIllegal = s.refuse .illegalOp := rfl

theorem refuseNotConstructed_eq : s.refuseNotConstructed = s.refuse .notConstructed := rfl

end State

end Sys2Proof.Machine
end

