-- ==== Sys2Proof/Laws/Ops.lean ====
section
/-! SUPPORT. What each shared operation can do, said once: an inversion lemma for each ("if it answers next `t`, then
..."), the equations of the sequencer, and its two induction principles. Later proofs cite these instead of unfolding
the operations. -/

namespace Sys2Proof.Machine

/-! ### Issuing and ending -/

theorem issue_cases {op : Op} {k : BitVec 3} {s t : State} (h : issue op k s = .next t) :
    ∃ row tx, rowAt op k = some row ∧ rowTransaction row s.opt = some tx ∧
      t = { s with stepIdx := some k, bus := some tx } := by
  unfold issue at h
  split at h
  · cases h
  · next row hrow =>
    split at h
    · cases h
    · next tx htx => exact ⟨row, tx, hrow, htx, by injection h with h; exact h.symm⟩

theorem issue_eq {op : Op} {k : BitVec 3} {s : State} {row : Row} {tx : Transaction}
    (hrow : rowAt op k = some row) (htx : rowTransaction row s.opt = some tx) :
    issue op k s = .next { s with stepIdx := some k, bus := some tx } := by
  simp only [issue, hrow, htx]

theorem respondOk_cases {d : Except Fault Data} {s t : State} (h : respondOk d s = .next t) :
    ∃ v, d = .ok v ∧ t = s.respond (.ok v) := by
  unfold respondOk at h
  split at h
  · next v => exact ⟨v, rfl, by injection h with h; exact h.symm⟩
  · cases h

/-- The state in which an operation's `OK` response is given: CONFIGURE has set `constructed`. -/
def State.beforeOk (s : State) (op : Op) : State := { s with constructed := s.constructed || decide (op = .configure) }

theorem finish_eq (op : Op) (s : State) : finish op s = respondOk (okData op s) (s.beforeOk op) := by
  cases op <;> simp [finish, State.beforeOk, State.construct]

theorem finish_cases {op : Op} {s t : State} (h : finish op s = .next t) :
    ∃ v, okData op s = .ok v ∧ t = (s.beforeOk op).respond (.ok v) :=
  respondOk_cases (finish_eq op s ▸ h)

theorem gate_cases {op : Op} {k : BitVec 3} {s t : State} (h : gate op k s = .next t) :
    ∃ st, s.latStatus = some st ∧
      ((statusOk st = true ∧ issue op (k + 1#3) s = .next t) ∨ (statusOk st = false ∧ t = s.respond .unavailable)) := by
  unfold gate at h
  split at h
  · cases h
  · next st hst =>
    split at h
    · next hok => exact ⟨st, hst, .inl ⟨hok, h⟩⟩
    · next hok => exact ⟨st, hst, .inr ⟨by simpa using hok, by injection h with h; exact h.symm⟩⟩

theorem advance_cases {op : Op} {k : BitVec 3} {a : Advance} {s t : State} (h : advance op k a s = .next t) :
    (a ≠ .respond ∧ issue op (k + 1#3) s = .next t ∧
        (a = .gate → ∃ st, s.latStatus = some st ∧ statusOk st = true)) ∨
    (a = .respond ∧ ∃ v, okData op s = .ok v ∧ t = (s.beforeOk op).respond (.ok v)) ∨
    (a = .gate ∧ ∃ st, s.latStatus = some st ∧ statusOk st = false ∧ t = s.respond .unavailable) := by
  cases a with
  | next => exact .inl ⟨by simp, h, by simp⟩
  | respond => exact .inr (.inl ⟨rfl, finish_cases h⟩)
  | gate =>
    obtain ⟨st, hst, ⟨hok, h⟩ | ⟨hok, h⟩⟩ := gate_cases h
    · exact .inl ⟨by simp, h, fun _ => ⟨st, hst, hok⟩⟩
    · exact .inr (.inr ⟨rfl, st, hst, hok, h⟩)

/-- The state just after a transaction returned `ok` and its bytes were latched. -/
def State.received (s : State) (row : Row) (tx : Transaction) (b0 b1 : Byte) : State :=
  (s.record tx (.ok (Machine.received tx b0 b1))).latch row.target b0 b1

/-- What the return of the outstanding transaction can do. -/
theorem complete_cases {r : Reply} {s t : State} (h : complete r s = .next t) :
    ∃ op k tx row, s.curOp = some op ∧ s.stepIdx = some k ∧ s.bus = some tx ∧ rowAt op k = some row ∧
      ((∃ e, r = .err e ∧ t = (s.record tx (.err e)).respond (.transportError e)) ∨
        ∃ b0 b1, r = .ok b0 b1 ∧ advance op k row.advance (s.received row tx b0 b1) = .next t) := by
  unfold complete at h
  split at h
  · next op k tx hop hk htx =>
    split at h
    · cases h
    · next row hrow =>
      refine ⟨op, k, tx, row, hop, hk, htx, hrow, ?_⟩
      cases r with
      | err e => exact .inl ⟨e, rfl, by injection h with h; exact h.symm⟩
      | ok b0 b1 => exact .inr ⟨b0, b1, rfl, h⟩
  all_goals cases h

theorem complete_err {s : State} {op : Op} {k : BitVec 3} {tx : Transaction} {row : Row} (e : TransportErr)
    (hop : s.curOp = some op) (hk : s.stepIdx = some k) (htx : s.bus = some tx) (hrow : rowAt op k = some row) :
    complete (.err e) s = .next ((s.record tx (.err e)).respond (.transportError e)) := by
  simp only [complete, hop, hk, htx, hrow, State.raiseTransportError]

theorem complete_ok {s : State} {op : Op} {k : BitVec 3} {tx : Transaction} {row : Row} (b0 b1 : Byte)
    (hop : s.curOp = some op) (hk : s.stepIdx = some k) (htx : s.bus = some tx) (hrow : rowAt op k = some row) :
    complete (.ok b0 b1) s = advance op k row.advance (s.received row tx b0 b1) := by
  simp only [complete, hop, hk, htx, hrow, State.received]

/-! ### The sequencer -/

@[simp] theorem settle_nil (s : State) : settle [] s = .next { s with answers := [] } := rfl

theorem settle_idle {s : State} (h : s.busy = false) (as : List Answer) :
    settle as s = .next { s with answers := as } := by
  cases as <;> simp [settle, h]

theorem settle_later {s : State} (h : s.busy = true) (as : List Answer) :
    settle (.later :: as) s = .next { s with answers := as } := by
  simp [settle, h]

theorem settle_reply {s : State} (h : s.busy = true) (r : Reply) (as : List Answer) :
    settle (.reply r :: as) s =
      match complete r s with
      | .next s' => settle as s'
      | .fault f => .fault f
      | .refused x => .refused x :=
  if_pos h

theorem settle_reply_next {s u : State} (h : s.busy = true) {r : Reply} (hc : complete r s = .next u)
    (as : List Answer) : settle (.reply r :: as) s = settle as u := by
  rw [settle_reply h, hc]

/-- The first induction principle: a relation that holds when the sequencer stops, and that is carried backwards over
the return of one transaction, holds of every run of the sequencer. -/
theorem settle_induction {P : List Answer → State → State → Prop}
    (idle : ∀ as s, s.busy = false → P as s { s with answers := as })
    (nil : ∀ s, s.busy = true → P [] s { s with answers := [] })
    (later : ∀ as s, s.busy = true → P (.later :: as) s { s with answers := as })
    (reply : ∀ r as s u t, s.busy = true → complete r s = .next u → P as u t → P (.reply r :: as) s t) :
    ∀ {as : List Answer} {s t : State}, settle as s = .next t → P as s t := by
  intro as
  induction as with
  | nil =>
    intro s t h
    cases hb : s.busy with
    | false => rw [settle_idle hb] at h; injection h with h; exact h ▸ idle [] s hb
    | true => rw [settle_nil] at h; injection h with h; exact h ▸ nil s hb
  | cons a as ih =>
    intro s t h
    cases hb : s.busy with
    | false => rw [settle_idle hb] at h; injection h with h; exact h ▸ idle _ s hb
    | true =>
      cases a with
      | later => rw [settle_later hb] at h; injection h with h; exact h ▸ later as s hb
      | reply r =>
        rw [settle_reply hb] at h
        split at h
        · next u hu => exact reply r as s u t hb hu (ih h)
        · cases h
        · cases h

/-- A property of states that the return of a transaction keeps, and that does not depend on what the transport does
later, holds after every run of the sequencer. -/
theorem settle_keeps {P : State → Prop} (answers : ∀ s as, P s → P { s with answers := as })
    (complete : ∀ r s u, s.busy = true → P s → complete r s = .next u → P u) {as : List Answer} {s t : State}
    (h : settle as s = .next t) (hs : P s) : P t :=
  settle_induction (P := fun _ s t => P s → P t) (fun as s _ => answers s as) (fun s _ => answers s [])
    (fun as s _ => answers s as) (fun r _ s u _ hb hc ih hs => ih (complete r s u hb hs hc)) h hs

/-! ### Starting an operation and presenting a command -/

theorem startOperation_eq {op : Op} {opt : Option Options} {s t : State}
    (h : issue op 0#3 (s.accept op opt) = .next t) : startOperation op opt s = settle s.answers t := by
  obtain ⟨row, tx, -, -, rfl⟩ := issue_cases h
  simp only [startOperation, h, resume, State.accept_answers]

theorem startOperation_cases {op : Op} {opt : Option Options} {s t : State} (h : startOperation op opt s = .next t) :
    ∃ u, issue op 0#3 (s.accept op opt) = .next u ∧ settle s.answers u = .next t := by
  cases hi : issue op 0#3 (s.accept op opt) with
  | next u => exact ⟨u, rfl, startOperation_eq hi ▸ h⟩
  | fault f => simp [startOperation, hi] at h
  | refused x => simp [startOperation, hi] at h

theorem presentQuery_busy {op : Op} {s : State} (h : s.busy = true) : presentQuery op s = .next s := by
  simp [presentQuery, h]

theorem presentQuery_refused {op : Op} {s : State} (h : s.busy = false) (hc : s.constructed = false) :
    presentQuery op s = .next (s.refuse .notConstructed) := by
  simp [presentQuery, h, hc, State.refuseNotConstructed]

theorem presentQuery_accepted {op : Op} {s : State} (h : s.busy = false) (hc : s.constructed = true) :
    presentQuery op s = startOperation op none s := by
  simp [presentQuery, h, hc]

theorem presentConfigure_busy {o : Options} {s : State} (h : s.busy = true) : presentConfigure o s = .next s := by
  simp [presentConfigure, h]

theorem presentConfigure_accepted {o : Options} {s : State} (h : s.busy = false) :
    presentConfigure o s = startOperation .configure (some o) s := by
  simp [presentConfigure, h]

end Sys2Proof.Machine
end

