-- ==== Sys2Proof/Laws/Exec.lean ====
section
/-! SUPPORT. What presenting a command can do, for all commands at once, and the equations of a step. -/

namespace Sys2Proof.Machine

theorem exec_busy {i : Instr} {s : State} (h : s.busy = true) : exec i s = .next s := by
  cases i <;> first | exact presentConfigure_busy h | exact presentQuery_busy h

theorem exec_refused {i : Instr} {s : State} (hb : s.busy = false) (hc : s.constructed = false) (hi : i.IsQuery) :
    exec i s = .next (s.refuse .notConstructed) := by
  cases i <;> first | exact absurd rfl hi | exact presentQuery_refused hb hc

theorem exec_accepted {i : Instr} {s : State} (h : s.Accepts i) : exec i s = startOperation i.op i.opt s := by
  cases i <;>
    first
      | exact presentConfigure_accepted h.1
      | exact presentQuery_accepted h.1 (h.2 (by simp [Instr.IsQuery, Instr.op]))

/-- Transaction 0 of every command can be issued. -/
theorem issue_first (i : Instr) (s : State) :
    ∃ row tx, rowAt i.op 0#3 = some row ∧ rowTransaction row i.opt = some tx ∧
      issue i.op 0#3 (s.accept i.op i.opt) = .next { s.accept i.op i.opt with bus := some tx } := by
  cases i <;> exact ⟨_, _, rfl, rfl, rfl⟩

theorem exec_accepted_eq {i : Instr} {s : State} (h : s.Accepts i) :
    ∃ row tx, rowAt i.op 0#3 = some row ∧ rowTransaction row i.opt = some tx ∧
      exec i s = settle s.answers { s.accept i.op i.opt with bus := some tx } := by
  obtain ⟨row, tx, hrow, htx, hi⟩ := issue_first i s
  exact ⟨row, tx, hrow, htx, by rw [exec_accepted h, startOperation_eq hi]⟩

/-- The three things a command can meet: a busy block, a refusal, or its acceptance. -/
theorem exec_cases {i : Instr} {s t : State} (h : exec i s = .next t) :
    (s.busy = true ∧ t = s) ∨
    (s.busy = false ∧ s.constructed = false ∧ i.IsQuery ∧ t = s.refuse .notConstructed) ∨
    (s.Accepts i ∧ ∃ row tx, rowAt i.op 0#3 = some row ∧ rowTransaction row i.opt = some tx ∧
      settle s.answers { s.accept i.op i.opt with bus := some tx } = .next t) := by
  cases hb : s.busy with
  | true =>
    rw [exec_busy hb] at h
    injection h with h
    exact .inl ⟨rfl, h.symm⟩
  | false =>
    by_cases hq : i.IsQuery ∧ s.constructed = false
    · rw [exec_refused hb hq.2 hq.1] at h
      injection h with h
      exact .inr (.inl ⟨rfl, hq.2, hq.1, h.symm⟩)
    · have ha : s.Accepts i := ⟨hb, fun hi => by
        cases hc : s.constructed with
        | true => rfl
        | false => exact absurd ⟨hi, hc⟩ hq⟩
      obtain ⟨row, tx, hrow, htx, he⟩ := exec_accepted_eq ha
      exact .inr (.inr ⟨ha, row, tx, hrow, htx, he ▸ h⟩)

/-! ### A step -/

theorem step_reset {s : State} {more : List HostEvent} (h : s.host = .reset :: more) :
    step s = .next s.dropEvent.resetEvent := by
  simp [step, h]

theorem step_busy {s : State} (hb : s.busy = true) (hr : s.host.head? ≠ some .reset) : step s = resume s := by
  unfold step
  split
  · next h => simp [h] at hr
  · simp [hb]
  · simp [hb]

theorem step_wait {s : State} (hb : s.busy = false) (h : s.host = []) : step s = .next s := by
  simp [step, h, hb]

theorem step_command {s : State} {w : CommandWord} {more : List HostEvent} (hb : s.busy = false)
    (h : s.host = .command w :: more) : step s = runCommand w { s with host := more } := by
  simp [step, h, hb, State.dropEvent]

theorem runCommand_ok {w : CommandWord} {i : Instr} (h : decode w = .ok i) (s : State) : runCommand w s = exec i s := by
  simp [runCommand, h]

theorem runCommand_illegal {w : CommandWord} (h : decode w = .error .illegalOp) (s : State) :
    runCommand w s = .next (s.refuse .illegalOp) := by
  simp [runCommand, h, State.refuseIllegal]

/-- What a step can be: a RESET, a wait, the busy block going on, an illegal word, or a command. -/
theorem step_cases {s t : State} (h : step s = .next t) :
    (∃ more, s.host = .reset :: more ∧ t = { State.reset with host := more, answers := s.answers }) ∨
    (s.busy = false ∧ s.host = [] ∧ t = s) ∨
    (s.busy = true ∧ s.host.head? ≠ some .reset ∧ resume s = .next t) ∨
    (∃ w more, s.busy = false ∧ s.host = .command w :: more ∧ decode w = .error .illegalOp ∧
      t = State.refuse { s with host := more } .illegalOp) ∨
    (∃ w more i, s.busy = false ∧ s.host = .command w :: more ∧ decode w = .ok i ∧
      exec i { s with host := more } = .next t) := by
  rcases Bool.eq_false_or_eq_true s.busy with hb | hb
  · by_cases hr : s.host.head? = some .reset
    · obtain ⟨more, hh⟩ := List.head?_eq_some_iff.mp hr
      rw [step_reset hh] at h
      injection h with h
      exact .inl ⟨more, hh, by rw [← h]; simp [State.resetEvent, State.dropEvent, hh]⟩
    · exact .inr (.inr (.inl ⟨hb, hr, step_busy hb hr ▸ h⟩))
  · rcases hh : s.host with _ | ⟨e, more⟩
    · rw [step_wait hb hh] at h
      injection h with h
      exact .inr (.inl ⟨hb, rfl, h.symm⟩)
    · cases e with
      | reset =>
        rw [step_reset hh] at h
        injection h with h
        exact .inl ⟨more, rfl, by rw [← h]; simp [State.resetEvent, State.dropEvent, hh]⟩
      | command w =>
        rw [step_command hb hh] at h
        cases hd : decode w with
        | ok i => exact .inr (.inr (.inr (.inr ⟨w, more, i, hb, rfl, hd, runCommand_ok hd _ ▸ h⟩)))
        | error x =>
          cases x
          rw [runCommand_illegal hd] at h
          injection h with h
          exact .inr (.inr (.inr (.inl ⟨w, more, hb, rfl, hd, h.symm⟩)))

end Sys2Proof.Machine
end

