-- ==== Sys2Proof/Laws/Operands.lean ====
section
/-! SUPPORT. The small lemmas of the pure functions: the range check, the configuration bytes, words, the scaler, and
the data of a response as a number. -/

namespace Sys2Proof.Machine

/-! ### The range check -/

theorem fld_of_mem {v : Int} {max : Nat} (h : 0 ≤ v ∧ v ≤ max) : (fld v max : Int) = v := by
  simp only [fld, if_pos h]
  omega

theorem fld_of_not_mem {v : Int} {max : Nat} (h : ¬ (0 ≤ v ∧ v ≤ max)) : fld v max = 0 := if_neg h

theorem fld_le (v : Int) (max : Nat) : fld v max ≤ max := by
  unfold fld
  split <;> omega

@[simp] theorem fld_zero (max : Nat) : fld 0 max = 0 := by
  simp [fld]

/-! ### The configuration bytes -/

/-- Fields of C1 that fit their places do not overlap: the `|` of the formula is a sum. -/
theorem or_eq_add_c1 {a b c : Nat} (ha : a ≤ 1) (hb : b ≤ 7) (hc : c ≤ 3) :
    a <<< 5 ||| b <<< 2 ||| c = 32 * a + 4 * b + c := by
  interval_cases a <;> interval_cases b <;> interval_cases c <;> rfl

/-- Fields of C2 that fit their places do not overlap. -/
theorem or_eq_add_c2 {a b c d : Nat} (ha : a ≤ 3) (hb : b ≤ 1) (hc : c ≤ 3) (hd : d ≤ 3) :
    a <<< 6 ||| b <<< 4 ||| c <<< 2 ||| d = 64 * a + 16 * b + 4 * c + d := by
  interval_cases a <;> interval_cases b <;> interval_cases c <;> interval_cases d <;> rfl

theorem c1Value_eq (o : Options) :
    c1Value o = 32 * fld o.watchdog 1 + 4 * fld o.fastFilterThreshold 7 + fld o.slowFilter 3 :=
  or_eq_add_c1 (fld_le _ _) (fld_le _ _) (fld_le _ _)

theorem c2Value_eq (o : Options) :
    c2Value o = 64 * fld o.pwmFrequency 3 + 16 * fld o.outputStage 1 + 4 * fld o.hysteresis 3 + fld o.powerMode 3 :=
  or_eq_add_c2 (fld_le _ _) (fld_le _ _) (fld_le _ _) (fld_le _ _)

/-! ### Words and degrees as numbers -/

theorem append_toNat {n m : Nat} (x : BitVec n) (y : BitVec m) : (x ++ y).toNat = x.toNat * 2 ^ m + y.toNat := by
  rw [BitVec.toNat_append, Nat.shiftLeft_eq, Nat.mul_comm, Nat.two_pow_add_eq_or_of_lt y.isLt]

/-- The low part of a concatenation. -/
theorem append_low {n m : Nat} (x : BitVec n) (y : BitVec m) : (x ++ y).extractLsb' 0 m = y := by
  apply BitVec.eq_of_toNat_eq
  rw [BitVec.extractLsb'_toNat, append_toNat]
  simp [Nat.mod_eq_of_lt y.isLt]

/-- The high part of a concatenation. -/
theorem append_high {n m : Nat} (x : BitVec n) (y : BitVec m) : (x ++ y).extractLsb' m n = x := by
  apply BitVec.eq_of_toNat_eq
  rw [BitVec.extractLsb'_toNat, append_toNat, Nat.shiftRight_eq_div_pow, Nat.mul_comm, Nat.mul_add_div (by positivity),
    Nat.div_eq_of_lt y.isLt, Nat.add_zero, Nat.mod_eq_of_lt x.isLt]

theorem word16_toNat (b0 b1 : Byte) : (word16 b0 b1).toNat = b0.toNat * 256 + b1.toNat := append_toNat b0 b1

theorem word16_high (b0 b1 : Byte) : (word16 b0 b1).extractLsb' 8 8 = b0 := append_high b0 b1

theorem word16_low (b0 b1 : Byte) : (word16 b0 b1).extractLsb' 0 8 = b1 := append_low b0 b1

theorem scale_toNat (r : Half) : (scale r).toNat = r.toNat * 45 := by
  have h := r.isLt
  simp only [scale, BitVec.toNat_mul, BitVec.toNat_setWidth, BitVec.toNat_ofNat]
  omega

theorem packHalf_eq (w : Half) : packHalf w = BitVec.ofNat 22 w.toNat := by
  have h := w.isLt
  apply BitVec.eq_of_toNat_eq
  simp only [packHalf, append_toNat, BitVec.toNat_ofNat]
  omega

theorem scale_eq (r : Half) : scale r = BitVec.ofNat 22 (r.toNat * 45) := by
  have h := r.isLt
  apply BitVec.eq_of_toNat_eq
  rw [scale_toNat, BitVec.toNat_ofNat, Nat.mod_eq_of_lt (by omega)]

/-- The GET_STATUS data as a number: `agc`, then `mh`, `ml` and `md` at their weights (R67). -/
theorem packStatus_eq (d l h : Bool) (g : Byte) :
    packStatus d l h g = BitVec.ofNat 22 (g.toNat + (if h then 256 else 0) + (if l then 512 else 0) +
      (if d then 1024 else 0)) := by
  have hg := g.isLt
  apply BitVec.eq_of_toNat_eq
  simp only [packStatus, append_toNat, BitVec.toNat_ofNat]
  cases d <;> cases l <;> cases h <;> simp <;> omega

theorem packOk_eq (b : Bool) : packOk b = if b then 1#22 else 0#22 := by
  cases b <;> decide

/-- The predicate as the mask test of R92. -/
theorem statusOk_eq_true_iff (s : Byte) : statusOk s = true ↔ s &&& 0x38#8 = 0x20#8 := by
  revert s
  decide

end Sys2Proof.Machine
end

