-- ==== Sys2Proof/Laws/Passive.lean ====
section
/-! SUPPORT. The block does not look at everything in the state. A change of the state that touches only what the block
does not look at (the host's events, what was recorded earlier, the names of the transport's errors) passes through
the sequencer: `Passive` says what such a change must respect, and the lemmas below say that it commutes with the
operations. -/

namespace Sys2Proof.Machine

/-- `F` changes only what the block does not look at, renaming errors by `g`. -/
structure Passive (F : State → State) (g : TransportErr → TransportErr) : Prop where
  constructed : ∀ s, (F s).constructed = s.constructed
  busy : ∀ s, (F s).busy = s.busy
  curOp : ∀ s, (F s).curOp = s.curOp
  opt : ∀ s, (F s).opt = s.opt
  stepIdx : ∀ s, (F s).stepIdx = s.stepIdx
  latStatus : ∀ s, (F s).latStatus = s.latStatus
  latAgc : ∀ s, (F s).latAgc = s.latAgc
  latHi : ∀ s, (F s).latHi = s.latHi
  latLo : ∀ s, (F s).latLo = s.latLo
  bus : ∀ s, (F s).bus = s.bus
  issued : ∀ s k tx, { F s with stepIdx := some k, bus := some tx } = F { s with stepIdx := some k, bus := some tx }
  respond : ∀ s r, (F s).respond (r.mapErr g) = F (s.respond r)
  record : ∀ s tx o, (F s).record tx (o.mapErr g) = F (s.record tx o)
  latch : ∀ s t b0 b1, (F s).latch t b0 b1 = F (s.latch t b0 b1)
  beforeOk : ∀ s op, (F s).beforeOk op = F (s.beforeOk op)

variable {F : State → State} {g : TransportErr → TransportErr}

theorem Passive.okData (hF : Passive F g) (op : Op) (s : State) : Machine.okData op (F s) = Machine.okData op s := by
  cases op <;>
    simp only [Machine.okData, dataConfigure, dataGetStatus, dataIsOk, dataGetRawAngle, dataGetAngleDeg,
      dataGetAngleDegFast, dataGetRawConfig, latchedWord, hF.latStatus, hF.latAgc, hF.latHi, hF.latLo]

theorem Passive.issue (hF : Passive F g) (op : Op) (k : BitVec 3) (s : State) :
    Machine.issue op k (F s) = Result.map F (Machine.issue op k s) := by
  cases hrow : rowAt op k with
  | none => simp [Machine.issue, hrow, Result.map]
  | some row =>
    cases h : rowTransaction row s.opt with
    | none => simp [Machine.issue, hrow, hF.opt, h, Result.map]
    | some tx =>
      rw [issue_eq hrow h, issue_eq hrow ((hF.opt s).symm ▸ h)]
      exact congrArg Host.Outcome.next (hF.issued s k tx)

theorem Passive.respondOk (hF : Passive F g) (d : Except Fault Data) (s : State) :
    Machine.respondOk d (F s) = Result.map F (Machine.respondOk d s) := by
  cases d with
  | ok v => exact congrArg Host.Outcome.next (hF.respond s (.ok v))
  | error f => rfl

theorem Passive.advance (hF : Passive F g) (op : Op) (k : BitVec 3) (a : Advance) (s : State) :
    Machine.advance op k a (F s) = Result.map F (Machine.advance op k a s) := by
  cases a with
  | next => exact hF.issue op _ s
  | respond => simp only [Machine.advance, finish_eq, hF.okData, hF.beforeOk, hF.respondOk]
  | gate =>
    simp only [Machine.advance, gate, hF.latStatus]
    cases s.latStatus with
    | none => rfl
    | some st =>
      cases h : statusOk st with
      | false => simpa [h, Result.map, Response.mapErr] using hF.respond s .unavailable
      | true => simpa [h] using hF.issue op _ s

theorem Passive.complete (hF : Passive F g) (r : Reply) (s : State) :
    Machine.complete (r.mapErr g) (F s) = Result.map F (Machine.complete r s) := by
  simp only [Machine.complete, hF.curOp, hF.stepIdx, hF.bus]
  cases s.curOp with
  | none => rfl
  | some op =>
    cases s.stepIdx with
    | none => rfl
    | some k =>
      cases s.bus with
      | none => rfl
      | some tx =>
        cases hrow : rowAt op k with
        | none => simp [hrow, Result.map]
        | some row =>
          cases r with
          | err e =>
            have h := hF.respond (s.record tx (.err e)) (.transportError e)
            rw [← hF.record] at h
            simpa [hrow, Reply.mapErr, Response.mapErr, TxOutcome.mapErr, Result.map, State.raiseTransportError]
              using h
          | ok b0 b1 =>
            have h := hF.advance op k row.advance ((s.record tx (.ok (received tx b0 b1))).latch row.target b0 b1)
            rw [← hF.latch, ← hF.record] at h
            simpa [hrow, Reply.mapErr, TxOutcome.mapErr] using h

/-- A passive change that also respects the answers commutes with the sequencer. -/
theorem Passive.settle (hF : Passive F g)
    (hA : ∀ s as, { F s with answers := as.map (Answer.mapErr g) } = F { s with answers := as })
    (as : List Answer) (s : State) :
    Machine.settle (as.map (Answer.mapErr g)) (F s) = Result.map F (Machine.settle as s) := by
  induction as generalizing s with
  | nil => exact congrArg Host.Outcome.next (hA s [])
  | cons a as ih =>
    cases hb : s.busy with
    | false =>
      rw [settle_idle ((hF.busy s).trans hb), settle_idle hb]
      exact congrArg Host.Outcome.next (hA s (a :: as))
    | true =>
      have hb' := (hF.busy s).trans hb
      cases a with
      | later =>
        rw [List.map_cons, Answer.mapErr, settle_later hb', settle_later hb]
        exact congrArg Host.Outcome.next (hA s as)
      | reply r =>
        rw [List.map_cons, Answer.mapErr, settle_reply hb', settle_reply hb, hF.complete]
        cases Machine.complete r s with
        | next u => exact ih u
        | fault f => rfl
        | refused x => rfl

@[simp] theorem Reply.mapErr_id (r : Reply) : r.mapErr id = r := by cases r <;> rfl

@[simp] theorem Response.mapErr_id (r : Response) : r.mapErr id = r := by cases r <;> rfl

@[simp] theorem TxOutcome.mapErr_id (o : TxOutcome) : o.mapErr id = o := by cases o <;> rfl

@[simp] theorem Answer.mapErr_id (a : Answer) : a.mapErr id = a := by cases a <;> simp [Answer.mapErr]

/-- The form for a change that renames no error. -/
theorem Passive.settle_id (hF : Passive F id) (hA : ∀ s as, { F s with answers := as } = F { s with answers := as })
    (as : List Answer) (s : State) : Machine.settle as (F s) = Result.map F (Machine.settle as s) := by
  have hid : ∀ as : List Answer, as.map (Answer.mapErr id) = as := List.map_id'' Answer.mapErr_id
  have h := hF.settle (fun s as => by rw [hid]; exact hA s as) as s
  rwa [hid] at h

theorem passive_answers (bs : List Answer) : Passive (fun s => { s with answers := bs }) id where
  constructed _ := rfl
  busy _ := rfl
  curOp _ := rfl
  opt _ := rfl
  stepIdx _ := rfl
  latStatus _ := rfl
  latAgc _ := rfl
  latHi _ := rfl
  latLo _ := rfl
  bus _ := rfl
  issued _ _ _ := rfl
  respond s r := by simp [State.respond]
  record s tx o := by simp [State.record]
  latch s t b0 b1 := by cases t <;> rfl
  beforeOk _ _ := rfl

theorem passive_host (hs : List HostEvent) : Passive (fun s => { s with host := hs }) id where
  constructed _ := rfl
  busy _ := rfl
  curOp _ := rfl
  opt _ := rfl
  stepIdx _ := rfl
  latStatus _ := rfl
  latAgc _ := rfl
  latHi _ := rfl
  latLo _ := rfl
  bus _ := rfl
  issued _ _ _ := rfl
  respond s r := by simp [State.respond]
  record s tx o := by simp [State.record]
  latch s t b0 b1 := by cases t <;> rfl
  beforeOk _ _ := rfl

/-- What was recorded before a command: the trace, the responses, and the host's events. -/
theorem passive_records (hs : List HostEvent) (es : List TraceEntry) (rs : List Response) :
    Passive (fun s => { s with host := hs, trace := es ++ s.trace, responses := rs ++ s.responses }) id where
  constructed _ := rfl
  busy _ := rfl
  curOp _ := rfl
  opt _ := rfl
  stepIdx _ := rfl
  latStatus _ := rfl
  latAgc _ := rfl
  latHi _ := rfl
  latLo _ := rfl
  bus _ := rfl
  issued _ _ _ := rfl
  respond s r := by simp [State.respond]
  record s tx o := by simp [State.record]
  latch s t b0 b1 := by cases t <;> rfl
  beforeOk _ _ := rfl

theorem passive_mapErr (f : TransportErr → TransportErr) : Passive (State.mapErr f) f where
  constructed _ := rfl
  busy _ := rfl
  curOp _ := rfl
  opt _ := rfl
  stepIdx _ := rfl
  latStatus _ := rfl
  latAgc _ := rfl
  latHi _ := rfl
  latLo _ := rfl
  bus _ := rfl
  issued _ _ _ := rfl
  respond s r := by simp [State.respond, State.mapErr]
  record s tx o := by simp [State.record, State.mapErr]
  latch s t b0 b1 := by cases t <;> rfl
  beforeOk _ _ := rfl

/-- The sequencer is given its answers: it does not read the ones the state lines up. -/
theorem settle_answers (as : List Answer) (s : State) (bs : List Answer) :
    settle as { s with answers := bs } = settle as s := by
  induction as generalizing s with
  | nil => rfl
  | cons a as ih =>
    by_cases hb : s.busy = true
    · cases a with
      | later => simp only [settle, hb, if_true]
      | reply r =>
        have h := (passive_answers bs).complete r s
        rw [Reply.mapErr_id] at h
        rw [settle_reply (s := { s with answers := bs }) hb, settle_reply hb, h]
        cases complete r s with
        | next u => exact ih u
        | fault f => rfl
        | refused x => rfl
    · simp only [settle, hb]
      rfl

/-- Replies that arrive together act as replies that arrive one after another. -/
theorem settle_append {rs : List Reply} {s t : State} {more : List Answer}
    (h : settle (rs.map .reply) s = .next t) (hb : t.busy = true) :
    settle (rs.map .reply ++ more) s = settle more t := by
  induction rs generalizing s with
  | nil =>
    rw [List.map_nil, settle_nil] at h
    injection h with h
    rw [← h]
    exact (settle_answers more s []).symm
  | cons r rs ih =>
    cases hs : s.busy with
    | false =>
      rw [settle_idle hs] at h
      injection h with h
      rw [← h] at hb
      exact absurd (hs.symm.trans hb) (by simp)
    | true =>
      rw [List.map_cons, settle_reply hs] at h
      rw [List.map_cons, List.cons_append, settle_reply hs]
      cases hc : complete r s with
      | next u => rw [hc] at h; exact ih h
      | fault f => rw [hc] at h; cases h
      | refused x => rw [hc] at h; cases h

end Sys2Proof.Machine
end

