-- ==== Sys2Proof/Laws/PerInstr.lean ====
section
/-! SUPPORT. Statements made for every instruction, one lemma per constructor. The family `OpField`: the encoder puts
the operation's code of R62 in `CMD[2:0]`. -/

namespace Sys2Proof.Laws.OpField

/-- `CMD[2:0]` of the encoded command is its `op` code (spec/30_encoding.md rules R60, R61, R62). -/
def Statement (i : Instr) : Prop := opField (encode i) = i.opCode

theorem configure (h pm wd fft sf pwm os : Int) : Statement (.configure h pm wd fft sf pwm os) :=
  BitVec.extractLsb'_append_eq_right

theorem getStatus : Statement .getStatus := rfl

theorem isOk : Statement .isOk := rfl

theorem getRawAngle : Statement .getRawAngle := rfl

theorem getAngleDeg : Statement .getAngleDeg := rfl

theorem getAngleDegFast : Statement .getAngleDegFast := rfl

theorem getRawConfig : Statement .getRawConfig := rfl

end Sys2Proof.Laws.OpField
end

