-- ==== Sys2Proof/Laws/Sequences.lean ====
section
/-! SUPPORT. The sequence table read backwards: which places it has. -/

namespace Sys2Proof.Machine

/-- The table as a list of places, for the lemma below. -/
def rowPlaces : List (Op × BitVec 3 × Row) :=
  [Op.configure, .getStatus, .isOk, .getRawAngle, .getAngleDeg, .getAngleDegFast, .getRawConfig].flatMap fun op =>
    (sequence op).zipIdx.map fun p => (op, BitVec.ofNat 3 p.2, p.1)

theorem rowAt_mem_rowPlaces : ∀ (op : Op) (k : BitVec 3) (row : Row), rowAt op k = some row →
    (op, k, row) ∈ rowPlaces := by
  have h : ∀ (op : Op) (k : BitVec 3), ∀ row ∈ rowAt op k, (op, k, row) ∈ rowPlaces := by
    intro op
    cases op <;> decide
  exact fun op k row hr => h op k row hr

/-- Every place the table has (R48): a case analysis on this is a case analysis on the operation and its step. -/
theorem rowAt_cases {op : Op} {k : BitVec 3} {row : Row} (h : rowAt op k = some row) :
    (op = .configure ∧ k = 0#3 ∧ row = ⟨.writeConfig, .nowhere, .respond⟩) ∨
    (op = .getStatus ∧ k = 0#3 ∧ row = ⟨.select .status, .nowhere, .next⟩) ∨
    (op = .getStatus ∧ k = 1#3 ∧ row = ⟨.read .status, .status, .next⟩) ∨
    (op = .getStatus ∧ k = 2#3 ∧ row = ⟨.select .agc, .nowhere, .next⟩) ∨
    (op = .getStatus ∧ k = 3#3 ∧ row = ⟨.read .agc, .agc, .respond⟩) ∨
    (op = .isOk ∧ k = 0#3 ∧ row = ⟨.select .status, .nowhere, .next⟩) ∨
    (op = .isOk ∧ k = 1#3 ∧ row = ⟨.read .status, .status, .respond⟩) ∨
    (op = .getRawAngle ∧ k = 0#3 ∧ row = ⟨.select .angle, .nowhere, .next⟩) ∨
    (op = .getRawAngle ∧ k = 1#3 ∧ row = ⟨.read .angle, .hiLo, .respond⟩) ∨
    (op = .getAngleDeg ∧ k = 0#3 ∧ row = ⟨.select .status, .nowhere, .next⟩) ∨
    (op = .getAngleDeg ∧ k = 1#3 ∧ row = ⟨.read .status, .status, .gate⟩) ∨
    (op = .getAngleDeg ∧ k = 2#3 ∧ row = ⟨.select .angle, .nowhere, .next⟩) ∨
    (op = .getAngleDeg ∧ k = 3#3 ∧ row = ⟨.read .angle, .hiLo, .respond⟩) ∨
    (op = .getAngleDegFast ∧ k = 0#3 ∧ row = ⟨.select .angle, .nowhere, .next⟩) ∨
    (op = .getAngleDegFast ∧ k = 1#3 ∧ row = ⟨.read .angle, .hiLo, .respond⟩) ∨
    (op = .getRawConfig ∧ k = 0#3 ∧ row = ⟨.select .conf, .nowhere, .next⟩) ∨
    (op = .getRawConfig ∧ k = 1#3 ∧ row = ⟨.read .conf, .hiLo, .respond⟩) := by
  simpa [rowPlaces, sequence, seqConfigure, seqGetStatus, seqIsOk, seqGetRawAngle, seqGetAngleDeg, seqGetAngleDegFast,
    seqGetRawConfig, List.zipIdx, or_assoc, Prod.mk.injEq] using rowAt_mem_rowPlaces op k row h

end Sys2Proof.Machine
end

