-- ==== Sys2Proof/Tests/Slice0.lean ====
section
/-! SUPPORT. The model's own tests. Expected values are from spec/95_test_vectors.md (X, V and P name its rows) or are
worked out by hand from the encodings of spec/30_encoding.md. The last part shows, for every obligation that has
hypotheses, a concrete case that meets all of them. -/

namespace Sys2Proof.Tests

open Sys2Proof Sys2Proof.Machine

/-! ### Small states -/

/-- An idle, constructed block, with the transport's answers lined up. -/
def ready (as : List Answer) : State := { State.reset with constructed := true, answers := as }

/-- An idle block on which nothing is constructed. -/
def fresh (as : List Answer) : State := { State.reset with answers := as }

/-- A transaction returns `ok`; a read of one byte receives `b0`, a read of two `[b0, b1]`. -/
def good (b0 b1 : Byte) : Answer := .reply (.ok b0 b1)

/-- A register-select write returns `ok`. -/
def ack : Answer := good 0 0

def timeout : TransportErr := ⟨7⟩

/-- A transaction fails. -/
def bad : Answer := .reply (.err timeout)

/-- IS_OK in progress: its register-select write is outstanding. -/
def busyIsOk (as : List Answer) : State :=
  { ready as with
    busy := true
    curOp := some .isOk
    stepIdx := some 0#3
    bus := some (busWrite [Config.regStatus]) }

/-- CONFIGURE with every option 0 in progress: its write is outstanding. -/
def busyConfigure (as : List Answer) : State :=
  { fresh as with
    busy := true
    curOp := some .configure
    opt := some ⟨0, 0, 0, 0, 0, 0, 0⟩
    stepIdx := some 0#3
    bus := some (busWrite [Config.regConf, c1 ⟨0, 0, 0, 0, 0, 0, 0⟩, c2 ⟨0, 0, 0, 0, 0, 0, 0⟩]) }

/-- GET_ANGLE_DEG in progress: its status read is outstanding. -/
def busyGate (as : List Answer) : State :=
  { ready as with
    busy := true
    curOp := some .getAngleDeg
    stepIdx := some 1#3
    bus := some (busRead 1) }

/-- The response word a command ends with, if it ends. -/
def answered (r : Result) : Option ResponseWord :=
  match r with
  | .next t => t.rsp.map Response.word
  | .fault _ => none
  | .refused _ => none

/-! ### WellFormed: each check refuses an ill-formed command, and the ends of the range pass -/

theorem test_wf_hysteresis : (Instr.configure 128 0 0 0 0 0 0).wellFormed = false ∧
    (Instr.configure (-129) 0 0 0 0 0 0).wellFormed = false := by decide

theorem test_wf_powerMode : (Instr.configure 0 128 0 0 0 0 0).wellFormed = false ∧
    (Instr.configure 0 (-129) 0 0 0 0 0).wellFormed = false := by decide

theorem test_wf_watchdog : (Instr.configure 0 0 128 0 0 0 0).wellFormed = false ∧
    (Instr.configure 0 0 (-129) 0 0 0 0).wellFormed = false := by decide

theorem test_wf_fastFilterThreshold : (Instr.configure 0 0 0 128 0 0 0).wellFormed = false ∧
    (Instr.configure 0 0 0 (-129) 0 0 0).wellFormed = false := by decide

theorem test_wf_slowFilter : (Instr.configure 0 0 0 0 128 0 0).wellFormed = false ∧
    (Instr.configure 0 0 0 0 (-129) 0 0).wellFormed = false := by decide

theorem test_wf_pwmFrequency : (Instr.configure 0 0 0 0 0 128 0).wellFormed = false ∧
    (Instr.configure 0 0 0 0 0 (-129) 0).wellFormed = false := by decide

theorem test_wf_outputStage : (Instr.configure 0 0 0 0 0 0 128).wellFormed = false ∧
    (Instr.configure 0 0 0 0 0 0 (-129)).wellFormed = false := by decide

theorem test_wf_ends : (Instr.configure 127 (-128) 127 (-128) 127 (-128) 127).wellFormed = true ∧
    (Instr.configure (-128) 127 (-128) 127 (-128) 127 (-128)).wellFormed = true := by decide

/-! ### Decode: words written out from R60 to R62, fields from bit 58 down to bit 0 -/

/-- V2: outputStage 1, pwmFrequency 3, slowFilter 2, fastFilterThreshold 5, watchdog 1, powerMode 1, hysteresis 2, op 0;
the same word as the vector's hexadecimal. -/
theorem test_decode_configure :
    (0b00000001#8 ++ 0b00000011#8 ++ 0b00000010#8 ++ 0b00000101#8 ++ 0b00000001#8 ++ 0b00000001#8 ++ 0b00000010#8 ++
        0b000#3 : CommandWord) = 0x008181028080810#59 ∧
      decode 0x008181028080810#59 = .ok (.configure 2 1 1 5 2 3 1) := by decide

/-- V8: powerMode -128, the others -1. -/
theorem test_decode_configure_negative :
    decode 0x7FFFFFFFFFC07F8#59 = .ok (.configure (-1) (-128) (-1) (-1) (-1) (-1) (-1)) := by decide

theorem test_decode_getStatus : decode (0#56 ++ 0b001#3) = .ok .getStatus := by decide

/-- V66: the bits 58:3 are ignored. -/
theorem test_decode_isOk : decode (0#56 ++ 0b010#3) = .ok .isOk ∧ decode 0x7FFFFFFFFFFFFFA#59 = .ok .isOk := by decide

theorem test_decode_getRawAngle : decode (0#56 ++ 0b011#3) = .ok .getRawAngle := by decide

theorem test_decode_getAngleDeg : decode (0#56 ++ 0b100#3) = .ok .getAngleDeg := by decide

theorem test_decode_getAngleDegFast : decode (0#56 ++ 0b101#3) = .ok .getAngleDegFast := by decide

theorem test_decode_getRawConfig : decode (0#56 ++ 0b110#3) = .ok .getRawConfig := by decide

/-- V64, V65. -/
theorem test_decode_reserved : decode 7#59 = .error .illegalOp ∧
    decode 0x7FFFFFFFFFFFFFF#59 = .error .illegalOp := by decide

/-- P4's CONFIGURE line, as a table word of 64 bits, and the reserved code. -/
theorem test_decodeTableWord : decodeTableWord 64 0x010001807F80038 = some (.configure 7 0 (-1) 0 3 0 2) ∧
    decodeTableWord 64 7 = none := by decide

/-- V3 and V21. -/
theorem test_encode : encode (.configure 7 1 1 5 2 3 1) = 0x008181028080838#59 ∧
    encode (.configure 1 0 0 0 1 0 0) = 0x000000800000008#59 := by decide

/-- The first step after reset runs a presented word: CONFIGURE issues its write. -/
theorem test_withFetchWord : ∃ t, step (State.reset.withFetchWord 64 0) = .next t ∧
    t.bus = some (busWrite [Config.regConf, 0x00#8, 0x00#8]) := ⟨_, rfl, rfl⟩

/-! ### Pure functions -/

/-- V2, V3, V5, V6: the bytes C1 and C2. -/
theorem test_encoder : confWord ⟨2, 1, 1, 5, 2, 3, 1⟩ = 0x36D9#16 ∧ confWord ⟨7, 1, 1, 5, 2, 3, 1⟩ = 0x36D1#16 ∧
    confWord ⟨3, 3, 1, 7, 3, 3, 1⟩ = 0x3FDF#16 ∧ confWord ⟨4, 4, 2, 8, 4, 4, 2⟩ = 0x0000#16 := by decide

/-- V10 to V18: one field at a time. -/
theorem test_encoder_fields : confWord ⟨0, 0, 1, 0, 0, 0, 0⟩ = 0x2000#16 ∧ confWord ⟨0, 0, 0, 7, 0, 0, 0⟩ = 0x1C00#16 ∧
    confWord ⟨0, 0, 0, 0, 3, 0, 0⟩ = 0x0300#16 ∧ confWord ⟨0, 0, 0, 0, 0, 3, 0⟩ = 0x00C0#16 ∧
    confWord ⟨0, 0, 0, 0, 0, 0, 1⟩ = 0x0010#16 ∧ confWord ⟨3, 0, 0, 0, 0, 0, 0⟩ = 0x000C#16 ∧
    confWord ⟨0, 3, 0, 0, 0, 0, 0⟩ = 0x0003#16 := by decide

/-- X3. -/
theorem test_statusOk : statusOk 0x20 = true ∧ statusOk 0x67 = true ∧ statusOk 0x28 = false ∧ statusOk 0x30 = false ∧
    statusOk 0x00 = false ∧ statusOk 0x38 = false := by decide

/-- X5 and V50. -/
theorem test_scale : scale (word16 0x08 0x00) = 92160 ∧ scale (word16 0x0F 0xFF) = 184275 ∧
    scale (word16 0xFF 0xFF) = 2949075 := by decide

/-! ### One command at a time -/

/-- V2: the write, `OK`, and `constructed`. -/
theorem test_configure : ∃ t, exec (.configure 2 1 1 5 2 3 1) (fresh [ack]) = .next t ∧ t.constructed = true ∧
    t.rsp = some (.ok 0) ∧ t.trace = [wrote [Config.regConf, 0x36#8, 0xD9#8]] := ⟨_, rfl, rfl, rfl, rfl⟩

/-- P3: a failed CONFIGURE. -/
theorem test_configure_fails : ∃ t, exec (.configure 3 0 0 0 0 0 0) (fresh [bad]) = .next t ∧ t.constructed = false ∧
    t.rsp = some (.transportError timeout) := ⟨_, rfl, rfl, rfl⟩

/-- V22. -/
theorem test_getStatus :
    answered (exec .getStatus (ready [ack, good 0x20 0, ack, good 0x80 0])) = some 0x0002400#25 := by decide

/-- V33: the AGC pair fails, and the status byte is discarded. -/
theorem test_getStatus_fails : ∃ t, exec .getStatus (ready [ack, good 0x20 0, bad]) = .next t ∧
    t.rsp = some (.transportError timeout) ∧
    t.trace = [wrote [Config.regStatus], readIn [0x20#8], failed (busWrite [Config.regAgc]) timeout] :=
  ⟨_, rfl, rfl, rfl⟩

/-- V22, V29. -/
theorem test_isOk : answered (exec .isOk (ready [ack, good 0x20 0])) = some 0x0000008#25 ∧
    answered (exec .isOk (ready [ack, good 0x28 0])) = some 0x0000000#25 := by decide

/-- V37. -/
theorem test_isOk_refused : ∃ t, exec .isOk (fresh [ack, good 0x20 0]) = .next t ∧ t.rsp = some .notConstructed ∧
    t.trace = [] ∧ t.answers = [ack, good 0x20 0] := ⟨_, rfl, rfl, rfl, rfl⟩

/-- V41, V48: the first byte is the high byte, and nothing is masked. -/
theorem test_getRawAngle : answered (exec .getRawAngle (ready [ack, good 0x01 0x00])) = some 0x0000800#25 ∧
    answered (exec .getRawAngle (ready [ack, good 0x1F 0xFF])) = some 0x000FFF8#25 := by decide

/-- V51, V54. -/
theorem test_getAngleDeg :
    answered (exec .getAngleDeg (ready [ack, good 0x20 0, ack, good 0x08 0x00])) = some 0x00B4000#25 ∧
      answered (exec .getAngleDeg (ready [ack, good 0x20 0, ack, good 0x00 0x00])) = some 0x0000000#25 := by decide

/-- V52, V53: the gate; the two answers of an angle pair stay where they are. -/
theorem test_getAngleDeg_unavailable : ∃ t,
    exec .getAngleDeg (ready [ack, good 0x28 0, ack, good 0x08 0x00]) = .next t ∧ t.rsp = some .unavailable ∧
      t.trace = [wrote [Config.regStatus], readIn [0x28#8]] ∧ t.answers = [ack, good 0x08 0x00] := ⟨_, rfl, rfl, rfl, rfl⟩

/-- V58, V47. -/
theorem test_getAngleDegFast : answered (exec .getAngleDegFast (ready [ack, good 0x0F 0xFF])) = some 0x0167E98#25 ∧
    answered (exec .getAngleDegFast (ready [ack, good 0x10 0x00])) = some 0x0168000#25 := by decide

/-- V60, V62. -/
theorem test_getRawConfig : answered (exec .getRawConfig (ready [ack, good 0x36 0xD9])) = some 0x001B6C8#25 ∧
    answered (exec .getRawConfig (ready [ack, good 0x00 0x01])) = some 0x0000008#25 := by decide

/-- A RESET while a transaction hangs gives the block back. -/
theorem test_reset_while_hung : step { busyIsOk [] with host := [.reset] } = .next State.reset := rfl

/-! ### Witnesses: for every obligation with hypotheses, a case that meets them, and for each clause its boundary -/

theorem witness_DecodeOfEncodeIsTheCommand :
    (Instr.configure (-128) 127 (-1) 0 1 (-128) 127).wellFormed = true ∧ Instr.getStatus.wellFormed = true := by decide

theorem witness_EncodeOfDecodeIsTheWord :
    (decode 0x7FFFFFFFFFFFFFA#59 = .ok .isOk ∧ Instr.isOk.IsQuery) ∧
      (decode 0x000000000000018#59 = .ok (.configure 3 0 0 0 0 0 0) ∧ ¬ (Instr.configure 3 0 0 0 0 0 0).IsQuery) :=
  ⟨⟨by decide, fun h => (nomatch h)⟩, by decide, fun h => h rfl⟩

theorem witness_OnlyQueriesIgnoreBitsAndOnlyOpSevenIsIllegal :
    (opField 1#59 ≠ 0#3 ∧ opField 0x7FFFFFFFFFFFFF9#59 = opField 1#59) ∧
      (opField 7#59 ≠ 0#3 ∧ opField 0x7FFFFFFFFFFFFFF#59 = opField 7#59) ∧
      (opField 8#59 = 0#3 ∧ decode 8#59 = decode 8#59) ∧ opField 6#59 ≠ 7#3 := by decide

theorem witness_OutOfRangeOptionsCountAsZero :
    ((0 : Int) ≤ 0 ∧ (0 : Int) ≤ (3 : Nat)) ∧ ((0 : Int) ≤ 3 ∧ (3 : Int) ≤ (3 : Nat)) ∧ ((-1 : Int) < 0) ∧
      (((3 : Nat) : Int) < 4) ∧ ((1 : Int) < 2) ∧ ((7 : Int) < 8) ∧
      (fresh [good 0 0]).busy = false ∧ (fresh [good 0 0]).answers = .reply (.ok 0 0) :: [] := by decide

theorem witness_ScalerIsExactAndIncreasing : (0xFFFE#16).toNat < (0xFFFF#16).toNat := by decide

theorem witness_DegreesStayBelowAFullTurnUnderTheContract :
    (4095#16).toNat ≤ 4095 ∧ 4096 ≤ (4096#16).toNat ∧ 4096 ≤ (0xFFFF#16).toNat := by decide

theorem witness_ResponseWordDeterminesTheResponse :
    Response.unavailable.code ≠ 0#3 ∧ (Response.transportError timeout).err ≠ none ∧
      (Response.ok 5).word = (Response.ok 5).word ∧ (Response.ok 5).err = (Response.ok 5).err := by decide

theorem witness_ResetEventRestoresResetState :
    ({ ready [] with host := [.reset] } : State).host = .reset :: [] ∧
      ({ busyGate [ack] with host := [.reset, .command 1] } : State).host = .reset :: [.command 1] := ⟨rfl, rfl⟩

theorem witness_StepRunsTheDecodedCommand :
    (ready []).busy = false ∧ ({ ready [] with host := [.command 4] } : State).host = .command 4 :: [] ∧
      decode 4#59 = .ok .getAngleDeg ∧ decode 0#59 = .ok (.configure 0 0 0 0 0 0 0) := by decide

theorem witness_ReservedOpIsRefused :
    (fresh []).busy = false ∧ ({ fresh [] with host := [.command 7] } : State).host = .command 7 :: [] ∧
      opField 7#59 = 7#3 ∧ opField 0x7FFFFFFFFFFFFFF#59 = 7#3 := by decide

theorem witness_QueriesAreRefusedUntilConstructed :
    (fresh [bad]).busy = false ∧ (fresh [bad]).constructed = false ∧ Instr.isOk.IsQuery ∧
      ¬ (Instr.configure 3 0 0 0 0 0 0).IsQuery ∧ (fresh [bad]).answers = .reply (.err timeout) :: [] ∧
      ∃ t, exec (.configure 3 0 0 0 0 0 0) (fresh [bad]) = .next t :=
  ⟨rfl, rfl, fun h => (nomatch h), fun h => h rfl, rfl, _, rfl⟩

theorem witness_BusyBlockAcceptsNoCommand :
    ({ busyIsOk [ack] with host := [.command 1] } : State).busy = true ∧
      ({ busyIsOk [ack] with host := [.command 1] } : State).host = .command 1 :: [] ∧
      ∃ t, step { busyIsOk [ack] with host := [.command 1] } = .next t := ⟨rfl, rfl, _, rfl⟩

theorem witness_IdleBlockWaitsForACommand : (ready [ack]).busy = false ∧ (ready [ack]).host = [] := ⟨rfl, rfl⟩

theorem witness_HungTransactionHangsTheBlock :
    (busyIsOk []).busy = true ∧ (busyIsOk []).answers = [] ∧ (busyIsOk []).host.head? ≠ some .reset := by
  refine ⟨rfl, rfl, by decide⟩

theorem witness_ConfigureWritesTheConfiguration :
    (ready [good 1 2]).busy = false ∧ (ready [good 1 2]).answers = .reply (.ok 1 2) :: [] ∧
      (fresh [bad]).busy = false ∧ (fresh [bad]).answers = .reply (.err timeout) :: [] := by decide

/-- GET_STATUS and the ungated queries: each clause's list of answers, on a ready block. -/
theorem witness_GetStatusReportsAllFourFields :
    (ready [good 0 0, good 0xFF 0, good 0 0, good 0 0]).busy = false ∧
      (ready [good 0 0, good 0xFF 0, good 0 0, good 0 0]).constructed = true ∧
      (ready [good 0 0, good 0xFF 0, good 0 0, good 0 0]).answers =
        .reply (.ok 0 0) :: .reply (.ok 0xFF 0) :: .reply (.ok 0 0) :: .reply (.ok 0 0) :: [] ∧
      (ready [bad]).answers = .reply (.err timeout) :: [] ∧
      (ready [ack, bad]).answers = .reply (.ok 0 0) :: .reply (.err timeout) :: [] ∧
      (ready [ack, ack, bad]).answers = .reply (.ok 0 0) :: .reply (.ok 0 0) :: .reply (.err timeout) :: [] ∧
      (ready [ack, ack, ack, bad]).answers =
        .reply (.ok 0 0) :: .reply (.ok 0 0) :: .reply (.ok 0 0) :: .reply (.err timeout) :: [] := by decide

theorem witness_IsOkReportsThePredicate :
    (ready [ack, good 0x67 0]).busy = false ∧ (ready [ack, good 0x67 0]).constructed = true ∧
      (ready [ack, good 0x67 0]).answers = .reply (.ok 0 0) :: .reply (.ok 0x67 0) :: [] ∧
      (ready [bad]).answers = .reply (.err timeout) :: [] ∧
      (ready [ack, bad]).answers = .reply (.ok 0 0) :: .reply (.err timeout) :: [] := by decide

theorem witness_GetRawAngleReturnsTheWordUnmasked :
    (ready [ack, good 0xFF 0xFF]).busy = false ∧ (ready [ack, good 0xFF 0xFF]).constructed = true ∧
      (ready [ack, good 0xFF 0xFF]).answers = .reply (.ok 0 0) :: .reply (.ok 0xFF 0xFF) :: [] ∧
      (ready [bad]).answers = .reply (.err timeout) :: [] ∧
      (ready [ack, bad]).answers = .reply (.ok 0 0) :: .reply (.err timeout) :: [] := by decide

theorem witness_GetAngleDegReturnsDegreesWhenOk :
    (0x20#8 &&& 0x38#8 = 0x20#8) ∧ (0xE7#8 &&& 0x38#8 = 0x20#8) ∧
      (ready [ack, good 0x20 0, ack, good 0x0F 0xFF]).busy = false ∧
      (ready [ack, good 0x20 0, ack, good 0x0F 0xFF]).constructed = true ∧
      (ready [ack, good 0x20 0, ack, good 0x0F 0xFF]).answers =
        .reply (.ok 0 0) :: .reply (.ok 0x20 0) :: .reply (.ok 0 0) :: .reply (.ok 0x0F 0xFF) :: [] ∧
      (ready [bad]).answers = .reply (.err timeout) :: [] ∧
      (ready [ack, bad]).answers = .reply (.ok 0 0) :: .reply (.err timeout) :: [] ∧
      (ready [ack, good 0x20 0, bad]).answers =
        .reply (.ok 0 0) :: .reply (.ok 0x20 0) :: .reply (.err timeout) :: [] ∧
      (ready [ack, good 0x20 0, ack, bad]).answers =
        .reply (.ok 0 0) :: .reply (.ok 0x20 0) :: .reply (.ok 0 0) :: .reply (.err timeout) :: [] := by decide

theorem witness_GetAngleDegShortCircuitsWhenNotOk :
    (0x00#8 &&& 0x38#8 ≠ 0x20#8) ∧ (0x28#8 &&& 0x38#8 ≠ 0x20#8) ∧ (0x30#8 &&& 0x38#8 ≠ 0x20#8) ∧
      (ready [ack, good 0x28 0]).busy = false ∧ (ready [ack, good 0x28 0]).constructed = true ∧
      (ready [ack, good 0x28 0]).answers = .reply (.ok 0 0) :: .reply (.ok 0x28 0) :: [] := by decide

theorem witness_GetAngleDegFastReturnsDegreesUngated :
    (ready [ack, good 0x10 0x00]).busy = false ∧ (ready [ack, good 0x10 0x00]).constructed = true ∧
      (ready [ack, good 0x10 0x00]).answers = .reply (.ok 0 0) :: .reply (.ok 0x10 0x00) :: [] ∧
      (ready [bad]).answers = .reply (.err timeout) :: [] ∧
      (ready [ack, bad]).answers = .reply (.ok 0 0) :: .reply (.err timeout) :: [] := by decide

theorem witness_GetRawConfigReturnsTheWordAsReceived :
    (ready [ack, good 0xFF 0xFF]).busy = false ∧ (ready [ack, good 0xFF 0xFF]).constructed = true ∧
      (ready [ack, good 0xFF 0xFF]).answers = .reply (.ok 0 0) :: .reply (.ok 0xFF 0xFF) :: [] ∧
      (ready [bad]).answers = .reply (.err timeout) :: [] ∧
      (ready [ack, bad]).answers = .reply (.ok 0 0) :: .reply (.err timeout) :: [] := by decide

theorem witness_DegreeQueriesAgree :
    (ready [ack, good 0x20 0, ack, good 0x08 0x00]).busy = false ∧ (ready [ack, good 0x08 0x00]).busy = false ∧
      (ready []).constructed = true ∧ (0x20#8 &&& 0x38#8 = 0x20#8) ∧
      (ready [ack, good 0x20 0, ack, good 0x08 0x00]).answers =
        .reply (.ok 0 0) :: .reply (.ok 0x20 0) :: .reply (.ok 0 0) :: .reply (.ok 0x08 0x00) :: [] ∧
      (ready [ack, good 0x08 0x00]).answers = .reply (.ok 0 0) :: .reply (.ok 0x08 0x00) :: [] := by decide

theorem ready_accepts (as : List Answer) (i : Instr) : (ready as).Accepts i := ⟨rfl, fun _ => rfl⟩

/-- Every command of R62, GET_ANGLE_DEG ending at its gate and GET_RAW_ANGLE failing in its read. -/
theorem witness_SequencerCarriesOutThePseudocode :
    ((fresh [ack]).Accepts (.configure 2 1 1 5 2 3 1) ∧ (fresh [ack]).answers = [Reply.ok 0 0].map .reply ++ [] ∧
      ∃ d, Pseudo.run (.configure 2 1 1 5 2 3 1) [Reply.ok 0 0] = some d ∧ d.response = .ok 0) ∧
    ((ready [ack, ack, ack, ack]).Accepts .getStatus ∧
      (ready [ack, ack, ack, ack]).answers = [Reply.ok 0 0, .ok 0 0, .ok 0 0, .ok 0 0].map .reply ++ [] ∧
      ∃ d, Pseudo.run .getStatus [Reply.ok 0 0, .ok 0 0, .ok 0 0, .ok 0 0] = some d) ∧
    ((ready [ack, good 0x20 0, bad]).Accepts .isOk ∧
      (ready [ack, good 0x20 0, bad]).answers = [Reply.ok 0 0, .ok 0x20 0, .err timeout].map .reply ++ [] ∧
      ∃ d, Pseudo.run .isOk [Reply.ok 0 0, .ok 0x20 0, .err timeout] = some d) ∧
    ((ready [ack, bad]).Accepts .getRawAngle ∧
      (ready [ack, bad]).answers = [Reply.ok 0 0, .err timeout].map .reply ++ [] ∧
      ∃ d, Pseudo.run .getRawAngle [Reply.ok 0 0, .err timeout] = some d) ∧
    ((ready [ack, ack]).Accepts .getAngleDeg ∧ (ready [ack, ack]).answers = [Reply.ok 0 0, .ok 0 0].map .reply ++ [] ∧
      ∃ d, Pseudo.run .getAngleDeg [Reply.ok 0 0, .ok 0 0] = some d ∧ d.response = .unavailable) ∧
    ((ready [ack, ack, .later]).Accepts .getAngleDegFast ∧
      (ready [ack, ack, .later]).answers = [Reply.ok 0 0, .ok 0 0].map .reply ++ [.later] ∧
      ∃ d, Pseudo.run .getAngleDegFast [Reply.ok 0 0, .ok 0 0] = some d) ∧
    (ready [ack, ack]).Accepts .getRawConfig ∧ (ready [ack, ack]).answers = [Reply.ok 0 0, .ok 0 0].map .reply ++ [] ∧
      ∃ d, Pseudo.run .getRawConfig [Reply.ok 0 0, .ok 0 0] = some d :=
  ⟨⟨⟨rfl, fun h => absurd rfl h⟩, rfl, _, rfl, rfl⟩, ⟨ready_accepts _ _, rfl, _, rfl⟩, ⟨ready_accepts _ _, rfl, _, rfl⟩,
    ⟨ready_accepts _ _, rfl, _, rfl⟩, ⟨ready_accepts _ _, rfl, _, rfl, rfl⟩, ⟨ready_accepts _ _, rfl, _, rfl⟩,
    ready_accepts _ _, rfl, _, rfl⟩

theorem witness_MissingAnswerLeavesATransactionOutstanding :
    (ready [ack]).Accepts .isOk ∧ (ready [ack]).answers = [Reply.ok 0 0].map .reply ∧
      Pseudo.run .isOk [Reply.ok 0 0] = none := ⟨ready_accepts _ _, rfl, rfl⟩

theorem witness_ArrivalTimesDoNotMatter : ∃ t,
    (ready []).host.head? ≠ some .reset ∧
      step { { ready [] with host := [.command 2] } with answers := [Reply.ok 0 0].map .reply } = .next t ∧
      t.busy = true ∧ t.host.head? ≠ some .reset := ⟨_, by decide, rfl, rfl, by decide⟩

theorem reset_idle (c : Bool) (as : List Answer) (h : List HostEvent) :
    State.Inv { State.reset with constructed := c, answers := as, host := h } :=
  ⟨fun _ => ⟨rfl, rfl, rfl, rfl, rfl, rfl, rfl, rfl⟩, fun h => (nomatch h)⟩

theorem busyIsOk_inv (as : List Answer) : (busyIsOk as).BusyInv .isOk 0#3 where
  curOp := rfl
  stepIdx := rfl
  issued := ⟨_, _, rfl, rfl, rfl⟩
  opt := ⟨fun h => (nomatch h), fun _ => rfl⟩
  constructed := fun _ => rfl
  latStatus := rfl
  latAgc := rfl
  latHi := rfl
  latLo := rfl
  gatePassed := fun h => (nomatch h)
  rsp := rfl

theorem busyConfigure_inv (as : List Answer) : (busyConfigure as).BusyInv .configure 0#3 where
  curOp := rfl
  stepIdx := rfl
  issued := ⟨_, _, rfl, rfl, rfl⟩
  opt := ⟨fun _ => ⟨_, rfl, by unfold Options.inRange; decide⟩, fun h => absurd rfl h⟩
  constructed := fun h => absurd rfl h
  latStatus := rfl
  latAgc := rfl
  latHi := rfl
  latLo := rfl
  gatePassed := fun h => (nomatch h)
  rsp := rfl

theorem busyGate_inv (as : List Answer) : (busyGate as).BusyInv .getAngleDeg 1#3 where
  curOp := rfl
  stepIdx := rfl
  issued := ⟨_, _, rfl, rfl, rfl⟩
  opt := ⟨fun h => (nomatch h), fun _ => rfl⟩
  constructed := fun _ => rfl
  latStatus := rfl
  latAgc := rfl
  latHi := rfl
  latLo := rfl
  gatePassed := fun _ h => absurd h (by decide)
  rsp := rfl

theorem busyIsOk_Inv (as : List Answer) : (busyIsOk as).Inv :=
  ⟨fun h => (nomatch h), fun _ => ⟨_, _, busyIsOk_inv as⟩⟩

theorem busyConfigure_Inv (as : List Answer) : (busyConfigure as).Inv :=
  ⟨fun h => (nomatch h), fun _ => ⟨_, _, busyConfigure_inv as⟩⟩

theorem witness_StepKeepsTheInvariant :
    (∃ t, (busyIsOk [ack]).Inv ∧ step (busyIsOk [ack]) = .next t) ∧
      ∃ t, (busyConfigure [bad]).Inv ∧ step (busyConfigure [bad]) = .next t :=
  ⟨⟨_, busyIsOk_Inv _, rfl⟩, _, busyConfigure_Inv _, rfl⟩

theorem witness_InvariantBlockNeverStops : (busyIsOk [ack]).Inv ∧ (busyConfigure []).Inv ∧ (ready [ack]).Inv :=
  ⟨busyIsOk_Inv _, busyConfigure_Inv _, reset_idle true [ack] []⟩

theorem witness_CommandsKeepTheInvariant :
    (Instr.configure (-128) 127 0 0 0 0 0).wellFormed = true ∧ (ready [ack]).Inv ∧ (busyIsOk []).Inv :=
  ⟨by decide, reset_idle true [ack] [], busyIsOk_Inv []⟩

theorem witness_EveryTransactionIsPermitted : ∃ t,
    (busyIsOk [ack]).Inv ∧ (busyIsOk [ack]).TracePermitted ∧ step (busyIsOk [ack]) = .next t ∧ t.trace ≠ [] :=
  ⟨_, busyIsOk_Inv _, fun _ h => (List.not_mem_nil h).elim, rfl, List.cons_ne_nil _ _⟩

theorem witness_ConstructedChangesOnlyByConfigureAndReset :
    (∃ t, step { fresh [ack] with host := [.command 0] } = .next t ∧ t.constructed = true) ∧
      (∃ t, step (busyConfigure [ack]) = .next t ∧ t.constructed = true) ∧
      ∃ t, (ready []).host.head? ≠ some .reset ∧ step (ready []) = .next t ∧ (ready []).constructed = true :=
  ⟨⟨_, rfl, rfl⟩, ⟨_, rfl, rfl⟩, _, by decide, rfl, rfl⟩

theorem witness_StepDeliversAtMostOneResponse :
    (∃ t, ({ ready [] with host := [.command 7] } : State).host.head? ≠ some .reset ∧
      step { ready [] with host := [.command 7] } = .next t ∧
      (∃ w more, ({ ready [] with host := [.command 7] } : State).host = .command w :: more) ∧ t.busy = false) ∧
    (∃ t, (busyIsOk [ack, ack]).host.head? ≠ some .reset ∧ step (busyIsOk [ack, ack]) = .next t ∧
      (busyIsOk [ack, ack]).busy = true ∧ t.busy = false) ∧
    ∃ t, step (busyIsOk [ack]) = .next t ∧ t.responses = (busyIsOk [ack]).responses :=
  ⟨⟨_, by decide, rfl, ⟨_, _, rfl⟩, rfl⟩, ⟨_, by decide, rfl, rfl, rfl⟩, _, rfl, rfl⟩

/-- The second clause on a busy block, and on an idle one that accepts a command and meets `later` at once. -/
theorem witness_LaterAnswerKeepsTheTransactionOutstanding :
    ((busyIsOk [.later, ack]).busy = true ∧ (busyIsOk [.later, ack]).answers = .later :: [ack] ∧
      (busyIsOk [.later, ack]).host.head? ≠ some .reset) ∧
    (∃ t, (busyIsOk []).host.head? ≠ some .reset ∧
      step { busyIsOk [] with answers := [Reply.ok 0 0].map .reply } = .next t ∧ t.busy = true) ∧
    ∃ t, ({ ready [] with host := [.command 4] } : State).host.head? ≠ some .reset ∧
      step { { ready [] with host := [.command 4] } with answers := ([] : List Reply).map .reply } = .next t ∧
      t.busy = true :=
  ⟨⟨rfl, rfl, by decide⟩, ⟨_, by decide, rfl, rfl⟩, _, by decide, rfl, rfl⟩

/-- The statements about a command on an idle block: a command that ends, one that fails, one that is refused. -/
theorem witness_TraceIsAPrefixOfTheSequence :
    (ready [ack]).busy = false ∧ (∃ t, exec .isOk (ready [ack, ack]) = .next t) ∧
      (∃ t, exec .isOk (ready [ack, bad]) = .next t) ∧ ∃ t, exec .isOk (fresh []) = .next t :=
  ⟨rfl, ⟨_, rfl⟩, ⟨_, rfl⟩, _, rfl⟩

theorem witness_ResumedTraceContinuesTheSequence : ∃ t,
    (busyGate [good 0x20 0]).busy = true ∧ (busyGate [good 0x20 0]).BusyInv .getAngleDeg 1#3 ∧
      (busyGate [good 0x20 0]).host.head? ≠ some .reset ∧ step (busyGate [good 0x20 0]) = .next t :=
  ⟨_, rfl, busyGate_inv _, by decide, rfl⟩

theorem witness_TransportErrorIsTheLastTransaction : ∃ t,
    (ready [ack, bad]).busy = false ∧ exec .isOk (ready [ack, bad]) = .next t ∧
      t.rsp = some (.transportError timeout) := ⟨_, rfl, rfl, rfl⟩

theorem witness_UnavailableComesOnlyFromTheGate :
    (∃ t, (ready [ack, ack]).busy = false ∧ exec .getAngleDeg (ready [ack, ack]) = .next t ∧
      t.rsp = some .unavailable) ∧
    ∃ t, (busyGate [ack]).busy = true ∧ (busyGate [ack]).BusyInv .getAngleDeg 1#3 ∧
      (busyGate [ack]).host.head? ≠ some .reset ∧ step (busyGate [ack]) = .next t ∧ t.rsp = some .unavailable :=
  ⟨⟨_, rfl, rfl, rfl⟩, _, rfl, busyGate_inv _, by decide, rfl, rfl⟩

theorem witness_QueriesWriteNoRegister : ∃ t,
    (ready [ack, ack]).busy = false ∧ Instr.getRawConfig.IsQuery ∧ exec .getRawConfig (ready [ack, ack]) = .next t :=
  ⟨_, rfl, fun h => (nomatch h), rfl⟩

theorem witness_QueryFrame : ∃ t, Instr.getRawAngle.IsQuery ∧ exec .getRawAngle (ready [ack, ack]) = .next t :=
  ⟨_, fun h => (nomatch h), rfl⟩

theorem witness_ConfigureFrame :
    (fresh [ack]).busy = false ∧ ¬ (Instr.configure 0 0 0 0 0 0 0).IsQuery ∧
      (∃ t, exec (.configure 0 0 0 0 0 0 0) (fresh [ack]) = .next t ∧ t.rsp = some (.ok 0)) ∧
      ∃ t, exec (.configure 0 0 0 0 0 0 0) (fresh [bad]) = .next t ∧ t.rsp ≠ some (.ok 0) :=
  ⟨rfl, fun h => h rfl, ⟨_, rfl, rfl⟩, _, rfl, by decide⟩

/-- The same block with another history: an earlier response, and another host event to come. -/
def readyWithHistory (as : List Answer) : State :=
  { ready as with rsp := some .unavailable, responses := [.unavailable], host := [.command 7] }

theorem readyWithHistory_Inv (as : List Answer) : (readyWithHistory as).Inv :=
  ⟨fun _ => ⟨rfl, rfl, rfl, rfl, rfl, rfl, rfl, rfl⟩, fun h => (nomatch h)⟩

theorem witness_NothingSurvivesAnOperationButConstructed : ∃ t,
    (ready [ack, ack]).Inv ∧ (readyWithHistory [ack, ack]).Inv ∧ (ready [ack, ack]).busy = false ∧
      (readyWithHistory [ack, ack]).busy = false ∧
      (ready [ack, ack]).constructed = (readyWithHistory [ack, ack]).constructed ∧
      (ready [ack, ack]).answers = (readyWithHistory [ack, ack]).answers ∧ exec .isOk (ready [ack, ack]) = .next t :=
  ⟨_, reset_idle true _ [], readyWithHistory_Inv _, rfl, rfl, rfl, rfl, rfl⟩

theorem witness_FourRepliesEndAnyCommand :
    (ready [ack, ack, ack, ack]).busy = false ∧
      (ready [ack, ack, ack, ack]).answers =
        .reply (.ok 0 0) :: .reply (.ok 0 0) :: .reply (.ok 0 0) :: .reply (.ok 0 0) :: [] := by decide

theorem witness_FourRepliesEndAnOperationInProgress :
    (busyIsOk [ack, ack, ack, ack]).Inv ∧ (busyIsOk [ack, ack, ack, ack]).busy = true ∧
      (busyIsOk [ack, ack, ack, ack]).host.head? ≠ some .reset ∧
      (busyIsOk [ack, ack, ack, ack]).answers =
        .reply (.ok 0 0) :: .reply (.ok 0 0) :: .reply (.ok 0 0) :: .reply (.ok 0 0) :: [] :=
  ⟨busyIsOk_Inv _, rfl, by decide, rfl⟩

theorem witness_TransactionCounts :
    (ready [ack, ack]).busy = false ∧ (∃ t, exec .isOk (ready [ack, ack]) = .next t ∧ t.rsp = some (.ok 0)) ∧
      (∃ t, exec .getAngleDeg (ready [ack, ack]) = .next t ∧ t.rsp = some .unavailable) ∧
      ∃ t, exec .isOk (fresh []) = .next t ∧ t.rsp = some .notConstructed :=
  ⟨rfl, ⟨_, rfl, rfl⟩, ⟨_, rfl, rfl⟩, _, rfl, rfl⟩

end Sys2Proof.Tests
end

/-! # Proofs about the state of the block: what a command, a transaction's return and a step do to it

The layers, in order: the word's command, the sequence table, one inversion lemma for the return of a transaction, what
the sequencer keeps, the invariant, and the statements of spec/10_state.md. -/

namespace Sys2Proof

/-! ### The command a word decodes to -/

theorem optionField_isInt8 (w : CommandWord) (lo : Nat) : IsInt8 (optionField w lo) := by
  have hlo := (w.extractLsb' lo 8).le_toInt
  have hhi := (w.extractLsb' lo 8).toInt_lt
  unfold optionField
  constructor <;> omega

/-- Every command word carries options of 8 bits (R63). -/
theorem decode_wellFormed {w : CommandWord} {i : Instr} (h : decode w = .ok i) : i.wellFormed = true := by
  unfold decode at h
  split at h <;> cases h
  case h_1 =>
    have hopt := fun lo => decide_eq_true (optionField_isInt8 w lo)
    simp only [decodeConfigure, Instr.wellFormed, hopt, Bool.and_self]
  all_goals rfl

/-- A word that starts CONFIGURE has `op = 0` (R62). -/
theorem opField_of_decode_configure {w : CommandWord} {i : Instr} (h : decode w = .ok i) (hi : i.op = .configure) :
    opField w = 0#3 := by
  unfold decode at h
  split at h <;> cases h
  case h_1 hop => exact BitVec.eq_of_toNat_eq hop
  all_goals cases hi

namespace Instr

theorem opt_eq_none {i : Instr} (h : i.op ≠ .configure) : i.opt = none := by
  cases i with
  | configure => exact absurd rfl h
  | _ => rfl

/-- A well-formed CONFIGURE carries seven options of 8 bits (R17, R63). -/
theorem opt_inRange {i : Instr} (hw : i.wellFormed = true) (h : i.op = .configure) :
    ∃ o, i.opt = some o ∧ o.inRange := by
  cases i with
  | configure => exact ⟨_, rfl, by simpa [wellFormed, Machine.Options.inRange, and_assoc] using hw⟩
  | _ => cases h

end Instr

namespace Machine

/-! ### The sequence table -/

theorem sequence_length_le (op : Op) : (sequence op).length ≤ 4 := by
  cases op <;> decide

/-- A step index that names a row does not wrap when it advances (R18). -/
theorem toNat_succ_of_rowAt {op : Op} {k : BitVec 3} {row : Row} (h : rowAt op k = some row) :
    (k + 1#3).toNat = k.toNat + 1 := by
  have hk : k.toNat < (sequence op).length := (List.getElem?_eq_some_iff.mp h).1
  have hlen := sequence_length_le op
  rw [BitVec.toNat_add, Nat.mod_eq_of_lt] <;> simp
  omega

theorem drop_of_rowAt {op : Op} {k : BitVec 3} {row : Row} (h : rowAt op k = some row) :
    (sequence op).drop k.toNat = row :: (sequence op).drop (k + 1#3).toNat := by
  obtain ⟨hk, hrow⟩ := List.getElem?_eq_some_iff.mp h
  rw [toNat_succ_of_rowAt h, List.drop_eq_getElem_cons hk, hrow]

theorem latchedBefore_succ {op : Op} {k : BitVec 3} {row : Row} (h : rowAt op k = some row) (t : Target) :
    latchedBefore op (k + 1#3) t = (latchedBefore op k t || decide (row.target = t)) := by
  have h' : (sequence op)[k.toNat]? = some row := h
  simp [latchedBefore, toNat_succ_of_rowAt h, List.take_add_one, h']

/-- A row that does not respond is not the last of its sequence. -/
theorem rowAt_succ {op : Op} {k : BitVec 3} {row : Row} (h : rowAt op k = some row) (hr : row.advance ≠ .respond) :
    ∃ row', rowAt op (k + 1#3) = some row' := by
  have table : ∀ (op : Op) (k : BitVec 3), ∀ row ∈ rowAt op k, row.advance ≠ .respond →
      (rowAt op (k + 1#3)).isSome := by
    intro op
    cases op <;> decide
  exact Option.isSome_iff_exists.mp (table op k row h hr)

theorem op_of_writeConfig {op : Op} {k : BitVec 3} {row : Row} (h : rowAt op k = some row)
    (ha : row.action = .writeConfig) : op = .configure := by
  have table : ∀ (op : Op) (k : BitVec 3), ∀ row ∈ rowAt op k, row.action = .writeConfig → op = .configure := by
    intro op
    cases op <;> decide
  exact table op k row h ha

theorem target_of_gate {op : Op} {k : BitVec 3} {row : Row} (h : rowAt op k = some row) (ha : row.advance = .gate) :
    row.target = .status := by
  have table : ∀ (op : Op) (k : BitVec 3), ∀ row ∈ rowAt op k, row.advance = .gate → row.target = .status := by
    intro op
    cases op <;> decide
  exact table op k row h ha

/-- GET_ANGLE_DEG goes past step 1 only over its gate, and past the gate it reads no status again (R104, R105). -/
theorem getAngleDeg_next {k : BitVec 3} {row : Row} (h : rowAt .getAngleDeg k = some row) (ha : row.advance = .next)
    (hk : 1 ≤ k.toNat) : 2 ≤ k.toNat ∧ row.target ≠ .status := by
  have table : ∀ k : BitVec 3, ∀ row ∈ rowAt .getAngleDeg k, row.advance = .next → 1 ≤ k.toNat →
      2 ≤ k.toNat ∧ row.target ≠ .status := by
    decide
  exact table k row h ha hk

/-- The latches the data of an operation's `OK` response is read from (R67). -/
def Op.reads : Op → List Target
  | .configure => []
  | .getStatus => [.status, .agc]
  | .isOk => [.status]
  | .getRawAngle | .getAngleDeg | .getAngleDegFast | .getRawConfig => [.hiLo]

/-- At the row that responds, all the latches of the response have been written (R19). -/
theorem latchedBefore_of_respond {op : Op} {k : BitVec 3} {row : Row} (h : rowAt op k = some row)
    (ha : row.advance = .respond) : ∀ t ∈ op.reads, latchedBefore op (k + 1#3) t = true := by
  have table : ∀ (op : Op) (k : BitVec 3), ∀ row ∈ rowAt op k, row.advance = .respond →
      ∀ t ∈ op.reads, latchedBefore op (k + 1#3) t = true := by
    intro op
    cases op <;> decide
  exact table op k row h ha

theorem rowTransaction_eq_some {row : Row} {opt : Option Options} (h : row.action = .writeConfig → opt.isSome) :
    ∃ tx, rowTransaction row opt = some tx := by
  unfold rowTransaction
  split
  next ha => simpa [Option.isSome_iff_exists] using h ha
  all_goals exact ⟨_, rfl⟩

/-- The frame of a row of a query: the select of a register or a read (R30). -/
theorem rowTransaction_none {row : Row} {tx : Transaction} (h : rowTransaction row none = some tx) :
    (∃ r : RegSel, tx = busWrite [(rad r).address]) ∨ ∃ n, tx = busRead n := by
  unfold rowTransaction at h
  split at h <;> cases h
  · exact .inl ⟨_, rfl⟩
  · exact .inr ⟨_, rfl⟩

/-- Every frame of the table is one the block may issue (R30, R76 to R78). -/
theorem rowTransaction_permitted {row : Row} {opt : Option Options} {tx : Transaction}
    (h : rowTransaction row opt = some tx) : tx.Permitted := by
  unfold rowTransaction at h
  split at h
  · obtain ⟨o, -, rfl⟩ := Option.map_eq_some_iff.mp h
    exact ⟨rfl, .inr (.inr (.inr (.inr ⟨o, rfl⟩)))⟩
  next r _ => cases h; cases r <;> simp [Transaction.Permitted, rad]
  next r _ => cases h; cases r <;> simp [Transaction.Permitted, rad]

/-! ### The state after a transaction returned `ok`, and at the end of an operation -/

namespace State

variable (s : State)

section
variable (row : Row) (tx : Transaction) (b0 b1 : Byte)

@[simp] theorem received_constructed : (s.received row tx b0 b1).constructed = s.constructed := by simp [received]
@[simp] theorem received_busy : (s.received row tx b0 b1).busy = s.busy := by simp [received]
@[simp] theorem received_curOp : (s.received row tx b0 b1).curOp = s.curOp := by simp [received]
@[simp] theorem received_opt : (s.received row tx b0 b1).opt = s.opt := by simp [received]
@[simp] theorem received_latStatus :
    (s.received row tx b0 b1).latStatus = if row.target = .status then some b0 else s.latStatus := by simp [received]
@[simp] theorem received_latAgc :
    (s.received row tx b0 b1).latAgc = if row.target = .agc then some b0 else s.latAgc := by simp [received]
@[simp] theorem received_latHi :
    (s.received row tx b0 b1).latHi = if row.target = .hiLo then some b0 else s.latHi := by simp [received]
@[simp] theorem received_latLo :
    (s.received row tx b0 b1).latLo = if row.target = .hiLo then some b1 else s.latLo := by simp [received]
@[simp] theorem received_rsp : (s.received row tx b0 b1).rsp = s.rsp := by simp [received]
@[simp] theorem received_trace :
    (s.received row tx b0 b1).trace = s.trace ++ [⟨tx, .ok (Machine.received tx b0 b1)⟩] := by simp [received]
@[simp] theorem received_responses : (s.received row tx b0 b1).responses = s.responses := by simp [received]
@[simp] theorem received_host : (s.received row tx b0 b1).host = s.host := by simp [received]
@[simp] theorem received_answers : (s.received row tx b0 b1).answers = s.answers := by simp [received]

end

section
variable (es : List TraceEntry) (r : Response) (rest : List Answer)

@[simp] theorem ended_constructed : (s.ended es r rest).constructed = s.constructed := rfl
@[simp] theorem ended_busy : (s.ended es r rest).busy = false := rfl
@[simp] theorem ended_rsp : (s.ended es r rest).rsp = some r := rfl
@[simp] theorem ended_trace : (s.ended es r rest).trace = s.trace ++ es := rfl
@[simp] theorem ended_responses : (s.ended es r rest).responses = s.responses ++ [r] := rfl
@[simp] theorem ended_host : (s.ended es r rest).host = s.host := rfl
@[simp] theorem ended_answers : (s.ended es r rest).answers = rest := rfl

end

end State

/-- The outcome the trace shows of a transaction to which the transport replied `r` (R13, R42, R43). -/
def Reply.outcome (tx : Transaction) : Reply → TxOutcome
  | .ok b0 b1 => .ok (received tx b0 b1)
  | .err e => .err e

/-- A response after `record` and `latch` is an `ended` with one more entry: the latches do not survive it. -/
theorem respond_received_eq_ended (s : State) (row : Row) (tx : Transaction) (b0 b1 : Byte) (op : Op) (r : Response) :
    ((s.received row tx b0 b1).beforeOk op).respond r =
      ({ s with constructed := s.constructed || decide (op = .configure) } : State).ended
        [⟨tx, .ok (received tx b0 b1)⟩] r s.answers := by
  simp [State.respond, State.beforeOk, State.ended]

/-! ### The return of a transaction -/

/-- When the outstanding transaction returns, either the next row's transaction is outstanding, or the operation has
ended with a response, and only CONFIGURE's `OK` sets `constructed` (R16, R18, R83). -/
theorem complete_next_or_ended {r : Reply} {s u : State} (h : complete r s = .next u) :
    ∃ op k tx row, s.curOp = some op ∧ s.stepIdx = some k ∧ s.bus = some tx ∧ rowAt op k = some row ∧
      ((∃ b0 b1 row' tx', r = .ok b0 b1 ∧ rowAt op (k + 1#3) = some row' ∧ rowTransaction row' s.opt = some tx' ∧
          u = { s.received row tx b0 b1 with stepIdx := some (k + 1#3), bus := some tx' }) ∨
        ∃ c x, u = ({ s with constructed := c } : State).ended [⟨tx, r.outcome tx⟩] x s.answers ∧
          (c = s.constructed ∨ c = true ∧ op = .configure ∧ x = .ok 0)) := by
  obtain ⟨op, k, tx, row, hop, hk, htx, hrow, ⟨e, rfl, rfl⟩ | ⟨b0, b1, rfl, hadv⟩⟩ := complete_cases h
  · exact ⟨op, k, tx, row, hop, hk, htx, hrow, .inr ⟨s.constructed, _, rfl, .inl rfl⟩⟩
  refine ⟨op, k, tx, row, hop, hk, htx, hrow, ?_⟩
  obtain ⟨-, hissue, -⟩ | ⟨-, v, hv, rfl⟩ | ⟨-, -, -, -, rfl⟩ := advance_cases hadv
  · obtain ⟨row', tx', hrow', htx', rfl⟩ := issue_cases hissue
    exact .inl ⟨b0, b1, row', tx', rfl, hrow', by simpa using htx', rfl⟩
  · refine .inr ⟨_, _, respond_received_eq_ended s row tx b0 b1 op _, ?_⟩
    by_cases hc : op = .configure
    · subst hc
      cases hv
      exact .inr ⟨by simp, rfl, rfl⟩
    · exact .inl (by simp [hc])
  · exact .inr ⟨s.constructed, .unavailable, by simp [State.respond, State.ended, Reply.outcome], .inl rfl⟩

/-! ### What the sequencer keeps -/

/-- From `s`, with `as` lined up, to `t`: the host's events are as before, the records only grow, and the answers are
taken from the front (R32, R156). -/
def Frame (as : List Answer) (s t : State) : Prop :=
  t.host = s.host ∧ s.trace <+: t.trace ∧ s.responses <+: t.responses ∧ t.answers <:+ as

theorem settle_frame {as : List Answer} {s t : State} (h : settle as s = .next t) : Frame as s t := by
  refine settle_induction (P := Frame) ?idle ?nil ?later ?reply h
  case idle => exact fun as s _ => ⟨rfl, List.prefix_rfl, List.prefix_rfl, List.suffix_rfl⟩
  case nil => exact fun s _ => ⟨rfl, List.prefix_rfl, List.prefix_rfl, List.suffix_rfl⟩
  case later => exact fun as s _ => ⟨rfl, List.prefix_rfl, List.prefix_rfl, List.suffix_cons _ _⟩
  case reply =>
    rintro r as s u t - hc ⟨hhost, htrace, hresp, hans⟩
    obtain ⟨hhost', htrace', hresp'⟩ : u.host = s.host ∧ s.trace <+: u.trace ∧ s.responses <+: u.responses := by
      obtain ⟨op, k, tx, row, -, -, -, -, ⟨b0, b1, row', tx', -, -, -, rfl⟩ | ⟨c, x, rfl, -⟩⟩ :=
        complete_next_or_ended hc <;> simp
    exact ⟨hhost.trans hhost', htrace'.trans htrace, hresp'.trans hresp, hans.trans (List.suffix_cons _ _)⟩

/-- `constructed` is as before, and the operation too while it is in progress; or a CONFIGURE has ended with `OK` and
data 0 and set it (R16, R34 (d)). -/
def KeepsConstructed (s t : State) : Prop :=
  (t.constructed = s.constructed ∧ (t.busy = true → t.curOp = s.curOp)) ∨
    (t.constructed = true ∧ s.curOp = some .configure ∧ t.busy = false ∧ t.rsp = some (.ok 0))

theorem settle_constructed {as : List Answer} {s t : State} (h : settle as s = .next t) : KeepsConstructed s t := by
  refine settle_keeps (P := KeepsConstructed s) (fun _ _ => id) ?_ h (.inl ⟨rfl, fun _ => rfl⟩)
  rintro r u v hb (⟨hcon, hop⟩ | ⟨-, -, hidle, -⟩) hc
  · have hop := hop hb
    obtain ⟨op, k, tx, row, hop', -, -, -, ⟨b0, b1, row', tx', -, -, -, rfl⟩ | ⟨c, x, rfl, rfl | ⟨rfl, rfl, rfl⟩⟩⟩ :=
      complete_next_or_ended hc
    · exact .inl ⟨by simpa using hcon, fun _ => by simpa using hop⟩
    · exact .inl ⟨by simpa using hcon, by simp⟩
    · exact .inr ⟨rfl, hop ▸ hop', rfl, rfl⟩
  · simp [hb] at hidle

/-- From `s` to `t` nothing is delivered and the block is busy, or one response is and the block is idle (R17, R130). -/
def Delivers (s t : State) : Prop :=
  (t.busy = true ∧ t.responses = s.responses) ∨
    (t.busy = false ∧ ∃ r, t.responses = s.responses ++ [r] ∧ t.rsp = some r)

theorem settle_delivers {as : List Answer} {s t : State} (hs : s.busy = true) (h : settle as s = .next t) :
    Delivers s t := by
  refine settle_keeps (P := Delivers s) (fun _ _ => id) ?_ h (.inl ⟨hs, rfl⟩)
  rintro r u v hb (⟨-, hresp⟩ | ⟨hidle, -⟩) hc
  · obtain ⟨op, k, tx, row, -, -, -, -, ⟨b0, b1, row', tx', -, -, -, rfl⟩ | ⟨c, x, rfl, -⟩⟩ :=
      complete_next_or_ended hc
    · exact .inl ⟨by simpa using hb, by simpa using hresp⟩
    · exact .inr ⟨rfl, x, by simpa using hresp, rfl⟩
  · simp [hb] at hidle

/-! ### The transactions of an operation -/

/-- Row `k` of operation `op` is under way: its transaction is the one outstanding (R18, R49). -/
structure State.Outstanding (s : State) (op : Op) (k : BitVec 3) : Prop where
  curOp : s.curOp = some op
  stepIdx : s.stepIdx = some k
  issued : ∃ row tx, rowAt op k = some row ∧ rowTransaction row s.opt = some tx ∧ s.bus = some tx

theorem State.BusyInv.outstanding {s : State} {op : Op} {k : BitVec 3} (h : s.BusyInv op k) : s.Outstanding op k :=
  ⟨h.curOp, h.stepIdx, h.issued⟩

theorem accept_outstanding {i : Instr} {row : Row} {tx : Transaction} (hrow : rowAt i.op 0#3 = some row)
    (htx : rowTransaction row i.opt = some tx) (s : State) :
    State.Outstanding { s.accept i.op i.opt with bus := some tx } i.op 0#3 :=
  ⟨rfl, rfl, row, tx, hrow, htx, rfl⟩

/-- The entries `es` continue the sequence of `op` with options `opt` from row `k` on: they are the frames of the rows
from there on, up to some row; all but the last returned `ok`; and each shows an outcome the transport can give (R43,
R58). -/
structure Continues (op : Op) (k : BitVec 3) (opt : Option Options) (es : List TraceEntry) : Prop where
  frames : (es.map fun e => some e.tx) <+: ((sequence op).drop k.toNat).map (rowTransaction · opt)
  succeeded : ∀ e ∈ es.dropLast, e.succeeded = true
  outcome : ∀ e ∈ es, ∃ r : Reply, e.outcome = r.outcome e.tx

namespace Continues

variable {op : Op} {k : BitVec 3} {opt : Option Options} {row : Row} {tx : Transaction} {es : List TraceEntry}

theorem nil : Continues op k opt [] :=
  ⟨by simp, by simp, by simp⟩

theorem cons (hrow : rowAt op k = some row) (htx : rowTransaction row opt = some tx) (r : Reply)
    (hr : es ≠ [] → TraceEntry.succeeded ⟨tx, r.outcome tx⟩ = true) (h : Continues op (k + 1#3) opt es) :
    Continues op k opt (⟨tx, r.outcome tx⟩ :: es) where
  frames := by simpa [drop_of_rowAt hrow, htx] using h.frames
  succeeded := by
    cases es with
    | nil => simp
    | cons e es => simpa [hr] using h.succeeded
  outcome := List.forall_mem_cons.mpr ⟨⟨r, rfl⟩, h.outcome⟩

/-- Each entry is a frame of the table. -/
theorem exists_row (h : Continues op k opt es) {e : TraceEntry} (he : e ∈ es) :
    ∃ row, rowTransaction row opt = some e.tx := by
  obtain ⟨row, -, hrow⟩ := List.mem_map.mp (h.frames.subset (List.mem_map_of_mem he))
  exact ⟨row, hrow⟩

theorem permitted (h : Continues op k opt es) {e : TraceEntry} (he : e ∈ es) : e.Permitted := by
  obtain ⟨row, hrow⟩ := h.exists_row he
  have htx := rowTransaction_permitted hrow
  obtain ⟨r, hr⟩ := h.outcome e he
  refine ⟨htx, ?_⟩
  obtain ⟨tx, o⟩ := e
  dsimp only at hr htx ⊢
  subst hr
  cases r with
  | err x => cases tx <;> trivial
  | ok b0 b1 =>
    cases tx with
    | write a bytes => rfl
    | read a n => obtain ⟨-, rfl | rfl⟩ := htx <;> rfl

end Continues

/-- From `s` to `t` the trace grows by entries that continue the sequence of `op` from row `k` on. -/
def ContinuesTrace (op : Op) (k : BitVec 3) (opt : Option Options) (s t : State) : Prop :=
  ∃ es, t.trace = s.trace ++ es ∧ Continues op k opt es

section
variable {op : Op} {k : BitVec 3} {opt : Option Options} {s t : State}

theorem ContinuesTrace.of_trace_eq (h : t.trace = s.trace) : ContinuesTrace op k opt s t :=
  ⟨[], by simp [h], .nil⟩

theorem ContinuesTrace.permitted (h : ContinuesTrace op k opt s t) (hs : s.TracePermitted) : t.TracePermitted := by
  obtain ⟨es, hes, hcont⟩ := h
  intro e he
  rw [hes, List.mem_append] at he
  exact he.elim (hs e) hcont.permitted

/-- The sequencer continues the sequence from the outstanding row (R18, R49, R58). -/
theorem settle_trace {as : List Answer} (hs : s.Outstanding op k) (h : settle as s = .next t) :
    ContinuesTrace op k s.opt s t := by
  refine (settle_induction (P := fun _ s t => (s.busy = false → t.trace = s.trace) ∧
    ∀ op k, s.Outstanding op k → ContinuesTrace op k s.opt s t) ?idle ?nil ?later ?reply h).2 op k hs
  case idle => exact fun as s _ => ⟨fun _ => rfl, fun op k _ => .of_trace_eq rfl⟩
  case nil => exact fun s _ => ⟨fun _ => rfl, fun op k _ => .of_trace_eq rfl⟩
  case later => exact fun as s _ => ⟨fun _ => rfl, fun op k _ => .of_trace_eq rfl⟩
  case reply =>
    rintro r as s u t hb hc ⟨hidle, hbusy⟩
    refine ⟨by simp [hb], fun op k hs => ?_⟩
    obtain ⟨row, tx, hrow, htx, hbus⟩ := hs.issued
    obtain ⟨op', k', tx', row', hop', hk', hbus', hrow', hu⟩ := complete_next_or_ended hc
    obtain rfl : op = op' := by simpa [hs.curOp] using hop'
    obtain rfl : k = k' := by simpa [hs.stepIdx] using hk'
    obtain rfl : tx = tx' := by simpa [hbus] using hbus'
    obtain rfl : row = row' := by simpa [hrow] using hrow'
    obtain ⟨b0, b1, row', tx', rfl, hrow', htx', rfl⟩ | ⟨c, x, rfl, -⟩ := hu
    · obtain ⟨es, hes, hcont⟩ := hbusy op (k + 1#3)
        ⟨by simpa using hs.curOp, rfl, row', tx', hrow', by simpa using htx', rfl⟩
      exact ⟨_, by simpa [Reply.outcome] using hes, .cons hrow htx (.ok b0 b1) (fun _ => rfl) (by simpa using hcont)⟩
    · exact ⟨_, hidle rfl, .cons hrow htx r (by simp) .nil⟩

end

/-- The transactions a command adds, whatever the state of the block (R58). -/
theorem exec_trace {i : Instr} {s t : State} (h : exec i s = .next t) : ContinuesTrace i.op 0#3 i.opt s t := by
  obtain ⟨-, rfl⟩ | ⟨-, -, -, rfl⟩ | ⟨-, row, tx, hrow, htx, h⟩ := exec_cases h
  · exact .of_trace_eq rfl
  · exact .of_trace_eq rfl
  · exact settle_trace (accept_outstanding hrow htx s) h

/-! ### The invariant -/

theorem State.IdleInv.inv {s : State} (h : s.IdleInv) (hb : s.busy = false) : s.Inv :=
  ⟨fun _ => h, fun hb' => by simp [hb] at hb'⟩

theorem State.BusyInv.inv {s : State} {op : Op} {k : BitVec 3} (h : s.BusyInv op k) (hb : s.busy = true) : s.Inv :=
  ⟨fun hb' => by simp [hb] at hb', fun _ => ⟨op, k, h⟩⟩

/-- What the host and the transport do next is no part of the invariant. -/
theorem State.Inv.withEnvironment {s : State} (h : s.Inv) (es : List HostEvent) (as : List Answer) :
    State.Inv { s with host := es, answers := as } := by
  refine ⟨fun hb => { h.1 hb with }, fun hb => ?_⟩
  obtain ⟨op, k, hbusy⟩ := h.2 hb
  exact ⟨op, k, { hbusy with }⟩

theorem respond_inv (s : State) (r : Response) : (s.respond r).Inv :=
  State.IdleInv.inv ⟨rfl, rfl, rfl, rfl, rfl, rfl, rfl, rfl⟩ rfl

theorem reset_inv : State.reset.Inv :=
  State.IdleInv.inv ⟨rfl, rfl, rfl, rfl, rfl, rfl, rfl, rfl⟩ rfl

theorem refuse_inv {s : State} (h : s.Inv) (hb : s.busy = false) (r : Response) : (s.refuse r).Inv := by
  obtain ⟨hop, hopt, hk, hst, hagc, hhi, hlo, hbus⟩ := h.1 hb
  exact State.IdleInv.inv ⟨hop, hopt, hk, hst, hagc, hhi, hlo, hbus⟩ hb

/-- The busy block between two transactions: the rows before step `k` are done, and row `k` is not yet issued. -/
structure State.ReadyAt (s : State) (op : Op) (k : BitVec 3) : Prop where
  busy : s.busy = true
  curOp : s.curOp = some op
  opt : (op = .configure → ∃ o, s.opt = some o ∧ o.inRange) ∧ (op ≠ .configure → s.opt = none)
  constructed : op ≠ .configure → s.constructed = true
  latStatus : s.latStatus.isSome = latchedBefore op k .status
  latAgc : s.latAgc.isSome = latchedBefore op k .agc
  latHi : s.latHi.isSome = latchedBefore op k .hiLo
  latLo : s.latLo.isSome = latchedBefore op k .hiLo
  rsp : s.rsp = none

namespace State.ReadyAt

variable {s : State} {op : Op} {k : BitVec 3} {row : Row}

theorem accept {i : Instr} (hw : i.wellFormed = true) (h : s.Accepts i) : (s.accept i.op i.opt).ReadyAt i.op 0#3 where
  busy := rfl
  curOp := rfl
  opt := ⟨Instr.opt_inRange hw, Instr.opt_eq_none⟩
  constructed := h.2
  latStatus := by simp [latchedBefore]
  latAgc := by simp [latchedBefore]
  latHi := by simp [latchedBefore]
  latLo := by simp [latchedBefore]
  rsp := rfl

theorem received (hb : s.busy = true) (h : s.BusyInv op k) (hrow : rowAt op k = some row) (tx : Transaction)
    (b0 b1 : Byte) : (s.received row tx b0 b1).ReadyAt op (k + 1#3) where
  busy := by simpa using hb
  curOp := by simpa using h.curOp
  opt := by simpa using h.opt
  constructed := by simpa using h.constructed
  latStatus := by rw [latchedBefore_succ hrow, ← h.latStatus]; by_cases ht : row.target = .status <;> simp [ht]
  latAgc := by rw [latchedBefore_succ hrow, ← h.latAgc]; by_cases ht : row.target = .agc <;> simp [ht]
  latHi := by rw [latchedBefore_succ hrow, ← h.latHi]; by_cases ht : row.target = .hiLo <;> simp [ht]
  latLo := by rw [latchedBefore_succ hrow, ← h.latLo]; by_cases ht : row.target = .hiLo <;> simp [ht]
  rsp := by simpa using h.rsp

/-- The row can be issued: CONFIGURE, which alone needs the options, has them. -/
theorem issue (h : s.ReadyAt op k) (hrow : rowAt op k = some row)
    (hgate : op = .getAngleDeg → 2 ≤ k.toNat → ∃ st, s.latStatus = some st ∧ statusOk st = true) :
    ∃ t, Machine.issue op k s = .next t ∧ t.Inv := by
  obtain ⟨tx, htx⟩ : ∃ tx, rowTransaction row s.opt = some tx := rowTransaction_eq_some fun ha => by
    obtain ⟨o, ho, -⟩ := h.opt.1 (op_of_writeConfig hrow ha)
    simp [ho]
  have hinv : State.BusyInv { s with stepIdx := some k, bus := some tx } op k :=
    { curOp := h.curOp, stepIdx := rfl, issued := ⟨row, tx, hrow, htx, rfl⟩, opt := h.opt,
      constructed := h.constructed, latStatus := h.latStatus, latAgc := h.latAgc, latHi := h.latHi,
      latLo := h.latLo, gatePassed := hgate, rsp := h.rsp }
  exact ⟨_, issue_eq hrow htx, hinv.inv h.busy⟩

theorem latchedWord (h : s.ReadyAt op k) (hl : latchedBefore op k .hiLo = true) :
    ∃ w, Machine.latchedWord s = .ok w := by
  obtain ⟨b0, hb0⟩ := Option.isSome_iff_exists.mp (h.latHi.trans hl)
  obtain ⟨b1, hb1⟩ := Option.isSome_iff_exists.mp (h.latLo.trans hl)
  exact ⟨word16 b0 b1, by simp [Machine.latchedWord, hb0, hb1]⟩

/-- The response's data can be read from the latches (R67, U12). -/
theorem okData (h : s.ReadyAt op k) (hl : ∀ t ∈ op.reads, latchedBefore op k t = true) :
    ∃ v, Machine.okData op s = .ok v := by
  cases op with
  | configure => exact ⟨_, rfl⟩
  | getStatus =>
    obtain ⟨st, hst⟩ := Option.isSome_iff_exists.mp (h.latStatus.trans (hl .status (by decide)))
    obtain ⟨g, hg⟩ := Option.isSome_iff_exists.mp (h.latAgc.trans (hl .agc (by decide)))
    simp [Machine.okData, dataGetStatus, hst, hg]
  | isOk =>
    obtain ⟨st, hst⟩ := Option.isSome_iff_exists.mp (h.latStatus.trans (hl .status (by decide)))
    simp [Machine.okData, dataIsOk, hst]
  | getRawAngle =>
    obtain ⟨w, hw⟩ := h.latchedWord (hl .hiLo (by decide))
    simp [Machine.okData, dataGetRawAngle, hw]
  | getAngleDeg =>
    obtain ⟨w, hw⟩ := h.latchedWord (hl .hiLo (by decide))
    simp [Machine.okData, dataGetAngleDeg, hw]
  | getAngleDegFast =>
    obtain ⟨w, hw⟩ := h.latchedWord (hl .hiLo (by decide))
    simp [Machine.okData, dataGetAngleDegFast, hw]
  | getRawConfig =>
    obtain ⟨w, hw⟩ := h.latchedWord (hl .hiLo (by decide))
    simp [Machine.okData, dataGetRawConfig, hw]

end State.ReadyAt

/-- Under the invariant the return of the outstanding transaction never stops the block, and keeps the invariant. -/
theorem complete_inv {s : State} (hs : s.Inv) (hb : s.busy = true) (r : Reply) :
    ∃ u, complete r s = .next u ∧ u.Inv := by
  obtain ⟨op, k, h⟩ := hs.2 hb
  obtain ⟨row, tx, hrow, -, hbus⟩ := h.issued
  cases r with
  | err e => exact ⟨_, complete_err e h.curOp h.stepIdx hbus hrow, respond_inv _ _⟩
  | ok b0 b1 =>
    rw [complete_ok b0 b1 h.curOp h.stepIdx hbus hrow]
    have hready := State.ReadyAt.received hb h hrow tx b0 b1
    cases ha : row.advance with
    | next =>
      obtain ⟨row', hrow'⟩ := rowAt_succ hrow (by simp [ha])
      refine hready.issue hrow' ?_
      rintro rfl hk
      rw [toNat_succ_of_rowAt hrow] at hk
      obtain ⟨hk2, ht⟩ := getAngleDeg_next hrow ha (by omega)
      simpa [ht] using h.gatePassed rfl hk2
    | respond =>
      obtain ⟨v, hv⟩ := hready.okData (latchedBefore_of_respond hrow ha)
      exact ⟨_, by rw [advance, finish_eq, hv, respondOk], respond_inv _ _⟩
    | gate =>
      have hst : (s.received row tx b0 b1).latStatus = some b0 := by simp [target_of_gate hrow ha]
      obtain ⟨row', hrow'⟩ := rowAt_succ hrow (by simp [ha])
      cases hok : statusOk b0 with
      | true =>
        simp only [advance, gate, hst, hok, if_true]
        exact hready.issue hrow' fun _ _ => ⟨b0, hst, hok⟩
      | false => exact ⟨_, by simp only [advance, gate, hst, hok]; rfl, respond_inv _ _⟩

theorem settle_inv {s : State} (hs : s.Inv) (as : List Answer) : ∃ t, settle as s = .next t ∧ t.Inv := by
  induction as generalizing s with
  | nil => exact ⟨_, rfl, hs.withEnvironment s.host []⟩
  | cons a as ih =>
    cases hb : s.busy with
    | false => exact ⟨_, settle_idle hb _, hs.withEnvironment s.host (a :: as)⟩
    | true =>
      cases a with
      | later => exact ⟨_, settle_later hb as, hs.withEnvironment s.host as⟩
      | reply r =>
        obtain ⟨u, hc, hu⟩ := complete_inv hs hb r
        rw [settle_reply_next hb hc]
        exact ih hu

theorem exec_inv {i : Instr} {s : State} (hw : i.wellFormed = true) (hs : s.Inv) :
    ∃ t, exec i s = .next t ∧ t.Inv := by
  cases hb : s.busy with
  | true => exact ⟨s, exec_busy hb, hs⟩
  | false =>
    by_cases hq : i.IsQuery → s.constructed = true
    · obtain ⟨row, tx, hrow, -, hi⟩ := issue_first i s
      obtain ⟨u, hu, hinv⟩ := (State.ReadyAt.accept hw ⟨hb, hq⟩).issue hrow (by simp)
      rw [exec_accepted ⟨hb, hq⟩, startOperation_eq hu]
      exact settle_inv hinv s.answers
    · obtain ⟨hi, hc⟩ := Classical.not_imp.mp hq
      exact ⟨_, exec_refused hb (by simpa using hc) hi, refuse_inv hs hb _⟩

/-- A step of a block that meets the invariant gives a next state that meets it (R34, R116). -/
theorem step_inv {s : State} (hs : s.Inv) : ∃ t, step s = .next t ∧ t.Inv := by
  by_cases hr : s.host.head? = some .reset
  · obtain ⟨more, hh⟩ := List.head?_eq_some_iff.mp hr
    exact ⟨_, step_reset hh, reset_inv.withEnvironment _ _⟩
  cases hb : s.busy with
  | true =>
    rw [step_busy hb hr]
    exact settle_inv hs s.answers
  | false =>
    rcases hh : s.host with _ | ⟨w | _, more⟩
    · exact ⟨s, step_wait hb hh, hs⟩
    · have hs' := hs.withEnvironment more s.answers
      rw [step_command hb hh]
      cases hd : decode w with
      | ok i =>
        rw [runCommand_ok hd]
        exact exec_inv (decode_wellFormed hd) hs'
      | error x =>
        cases x
        exact ⟨_, runCommand_illegal hd _, refuse_inv hs' hb _⟩
    · simp [hh] at hr

theorem step_keeps_inv {s t : State} (hs : s.Inv) (h : step s = .next t) : t.Inv := by
  obtain ⟨u, hu, hinv⟩ := step_inv hs
  obtain rfl : u = t := by simpa [hu] using h
  exact hinv

/-! ### What a step and a command do to the records -/

theorem exec_constructed {i : Instr} {s t : State} (h : exec i s = .next t) :
    t.constructed = s.constructed ∨
      (t.constructed = true ∧ i.op = .configure ∧ t.busy = false ∧ t.rsp = some (.ok 0)) := by
  obtain ⟨-, rfl⟩ | ⟨-, -, -, rfl⟩ | ⟨-, row, tx, -, -, h⟩ := exec_cases h
  · exact .inl rfl
  · exact .inl rfl
  · exact (settle_constructed h).imp And.left fun ⟨hc, hop, hrest⟩ => ⟨hc, Option.some.inj hop, hrest⟩

theorem exec_delivers {i : Instr} {s t : State} (hb : s.busy = false) (h : exec i s = .next t) : Delivers s t := by
  obtain ⟨hb', -⟩ | ⟨-, -, -, rfl⟩ | ⟨-, row, tx, -, -, h⟩ := exec_cases h
  · simp [hb] at hb'
  · exact .inr ⟨hb, _, rfl, rfl⟩
  · exact settle_delivers (s := { s.accept i.op i.opt with bus := some tx }) rfl h

theorem exec_frame {i : Instr} {s t : State} (h : exec i s = .next t) : Frame s.answers s t := by
  obtain ⟨-, rfl⟩ | ⟨-, -, -, rfl⟩ | ⟨-, row, tx, -, -, h⟩ := exec_cases h
  · exact ⟨rfl, List.prefix_rfl, List.prefix_rfl, List.suffix_rfl⟩
  · exact ⟨rfl, List.prefix_rfl, List.prefix_append _ _, List.suffix_rfl⟩
  · exact settle_frame (s := { s.accept i.op i.opt with bus := some tx }) h

/-! ### Two blocks with different histories -/

/-- The state without its history: no records and no host events. -/
def State.bare (s : State) : State := { s with host := [], trace := [], responses := [] }

/-- A history put before a state's own records, and the host events to come. -/
def State.withHistory (hs : List HostEvent) (es : List TraceEntry) (rs : List Response) (s : State) : State :=
  { s with host := hs, trace := es ++ s.trace, responses := rs ++ s.responses }

theorem State.withHistory_bare (s : State) : s.bare.withHistory s.host s.trace s.responses = s := by
  simp [State.withHistory, State.bare]

/-- The history of a block passes through the sequencer unread (R97). -/
theorem settle_bare (as : List Answer) (s : State) :
    settle as s = Result.map (State.withHistory s.host s.trace s.responses) (settle as s.bare) := by
  calc settle as s
    _ = settle as (s.bare.withHistory s.host s.trace s.responses) := by rw [s.withHistory_bare]
    _ = _ := (passive_records s.host s.trace s.responses).settle_id (fun _ _ => rfl) as s.bare

/-- `u` goes to `u'` by the same new transactions and responses as `s` to `s'`, and ends in the same block state. -/
def SameRun (s s' u u' : State) : Prop :=
  ∃ (es : List TraceEntry) (rs : List Response),
    s'.trace = s.trace ++ es ∧ u'.trace = u.trace ++ es ∧
    s'.responses = s.responses ++ rs ∧ u'.responses = u.responses ++ rs ∧
    u' = { s' with trace := u'.trace, responses := u'.responses, host := u'.host }

/-- Two states that differ in their histories only run alike. -/
theorem settle_sameRun {as : List Answer} {s u s' : State} (hsu : s.bare = u.bare) (h : settle as s = .next s') :
    ∃ u', settle as u = .next u' ∧ SameRun s s' u u' := by
  rw [settle_bare] at h
  rw [settle_bare, ← hsu]
  cases hb : settle as s.bare with
  | next b =>
    rw [hb] at h
    cases h
    exact ⟨_, rfl, b.trace, b.responses, rfl, rfl, rfl, rfl, rfl⟩
  | fault f => rw [hb] at h; cases h
  | refused x => rw [hb] at h; cases h

theorem exec_sameRun {i : Instr} {s u s' : State} (hs : s.IdleInv) (hu : u.IdleInv) (hsb : s.busy = false)
    (hub : u.busy = false) (hc : s.constructed = u.constructed) (ha : s.answers = u.answers)
    (h : exec i s = .next s') : ∃ u', exec i u = .next u' ∧ SameRun s s' u u' := by
  obtain ⟨hb, -⟩ | ⟨-, hcon, hi, rfl⟩ | ⟨hacc, row, tx, hrow, htx, h⟩ := exec_cases h
  · simp [hsb] at hb
  · refine ⟨_, exec_refused hub (hc ▸ hcon) hi, [], [.notConstructed], by simp, by simp, rfl, rfl, ?_⟩
    simp [State.refuse, hc, ha, hsb, hub, hs.curOp, hs.opt, hs.stepIdx, hs.latStatus, hs.latAgc, hs.latHi, hs.latLo,
      hs.bus, hu.curOp, hu.opt, hu.stepIdx, hu.latStatus, hu.latAgc, hu.latHi, hu.latLo, hu.bus]
  · obtain ⟨row', tx', hrow', htx', he⟩ := exec_accepted_eq (s := u) ⟨hub, hc ▸ hacc.2⟩
    obtain rfl : row = row' := by simpa [hrow] using hrow'
    obtain rfl : tx = tx' := by simpa [htx] using htx'
    rw [he, ← ha]
    exact settle_sameRun (s := { s.accept i.op i.opt with bus := some tx })
      (u := { u.accept i.op i.opt with bus := some tx })
      (by simp [State.bare, State.accept, hc, ha]) h

/-! ### The statements of spec/10_state.md -/

/-- Settles O37: `step_inv` gives the next state, and a step gives one. -/
theorem stepKeepsTheInvariant : Obligations.StepKeepsTheInvariant :=
  fun _ _ => step_keeps_inv

/-- Settles O41: the entries a step adds continue a sequence of the table. -/
theorem everyTransactionIsPermitted : Obligations.EveryTransactionIsPermitted := by
  intro s t hs htrace h
  obtain ⟨more, -, rfl⟩ | ⟨-, -, rfl⟩ | ⟨hb, -, h⟩ | ⟨w, more, -, -, -, rfl⟩ | ⟨w, more, i, -, -, -, h⟩ := step_cases h
  · exact fun _ he => (List.not_mem_nil he).elim
  · exact htrace
  · obtain ⟨op, k, hbusy⟩ := hs.2 hb
    exact (settle_trace hbusy.outstanding h).permitted htrace
  · exact htrace
  · exact (exec_trace h).permitted htrace

/-- Settles O39, by `step_inv`. -/
theorem invariantBlockNeverStops : Obligations.InvariantBlockNeverStops :=
  fun _ hs => (step_inv hs).imp fun _ => And.left

/-- Settles O40, by `exec_inv`. -/
theorem commandsKeepTheInvariant : Obligations.CommandsKeepTheInvariant :=
  fun _ _ => exec_inv

/-- Settles O42: of the five kinds of step, only RESET, a CONFIGURE in progress and a CONFIGURE presented change
`constructed`. -/
theorem constructedChangesOnlyByConfigureAndReset : Obligations.ConstructedChangesOnlyByConfigureAndReset := by
  intro s t h
  obtain ⟨more, hh, rfl⟩ | ⟨-, -, rfl⟩ | ⟨hb, -, h⟩ | ⟨w, more, -, -, -, rfl⟩ | ⟨w, more, i, hb, hh, hd, h⟩ :=
    step_cases h
  · exact ⟨fun _ hr => by simp [hh] at hr, fun _ ht => by cases ht⟩
  · exact ⟨fun hc _ => hc, fun hc ht => by simp [hc] at ht⟩
  · obtain ⟨hc, -⟩ | ⟨hc, hop, hidle, hrsp⟩ := settle_constructed h
    · exact ⟨fun hs _ => hc.trans hs, fun hs ht => by simp [hc, hs] at ht⟩
    · exact ⟨fun _ _ => hc, fun _ _ => ⟨hidle, hrsp, .inl ⟨hb, hop⟩⟩⟩
  · exact ⟨fun hc _ => hc, fun hc ht => by simp [hc] at ht⟩
  · obtain hc | ⟨hc, hop, hidle, hrsp⟩ := exec_constructed h
    · exact ⟨fun hs _ => hc.trans hs, fun hs ht => by simp [hc, hs] at ht⟩
    · exact ⟨fun _ _ => hc,
        fun _ _ => ⟨hidle, hrsp, .inr ⟨hb, w, more, hh, opField_of_decode_configure hd hop⟩⟩⟩

/-- Settles O43: a step waits, or it leaves the block busy with nothing delivered, or idle with one response more. -/
theorem stepDeliversAtMostOneResponse : Obligations.StepDeliversAtMostOneResponse := by
  intro s t hr h
  have of_delivers : Delivers s t →
      (t.responses = s.responses ∨ ∃ r, t.responses = s.responses ++ [r] ∧ t.rsp = some r ∧ t.busy = false) ∧
        ((s.busy = true ∨ ∃ w more, s.host = .command w :: more) → t.busy = false →
          ∃ r, t.responses = s.responses ++ [r] ∧ t.rsp = some r) := by
    rintro (⟨hb, hresp⟩ | ⟨hb, r, hresp, hrsp⟩)
    · exact ⟨.inl hresp, fun _ hidle => by simp [hb] at hidle⟩
    · exact ⟨.inr ⟨r, hresp, hrsp, hb⟩, fun _ _ => ⟨r, hresp, hrsp⟩⟩
  obtain ⟨more, hh, -⟩ | ⟨hb, hh, rfl⟩ | ⟨hb, -, h⟩ | ⟨w, more, hb, -, -, rfl⟩ | ⟨w, more, i, hb, -, -, h⟩ :=
    step_cases h
  · simp [hh] at hr
  · exact ⟨.inl rfl, fun hcmd _ => by simp [hb, hh] at hcmd⟩
  · exact of_delivers (settle_delivers hb h)
  · exact of_delivers (.inr ⟨hb, .illegalOp, rfl, rfl⟩)
  · exact of_delivers (exec_delivers (s := { s with host := more }) hb h)

/-- Settles O45, by `settle_trace`. -/
theorem resumedTraceContinuesTheSequence : Obligations.ResumedTraceContinuesTheSequence := by
  intro s t op k hb hs hr h
  rw [step_busy hb hr] at h
  obtain ⟨es, hes, hcont⟩ := settle_trace hs.outstanding h
  exact ⟨es, hes, hcont.frames, hcont.succeeded⟩

/-- Settles O48: the frames of a query are rows of the table issued without options. -/
theorem queriesWriteNoRegister : Obligations.QueriesWriteNoRegister := by
  intro i s t _ hi h
  obtain ⟨es, hes, hcont⟩ := exec_trace h
  rw [Instr.opt_eq_none hi] at hcont
  refine ⟨es, hes, fun e he => ?_⟩
  obtain ⟨row, hrow⟩ := hcont.exists_row he
  exact rowTransaction_none hrow

/-- Settles O49: the frame of every command, and `constructed` changes with CONFIGURE only. -/
theorem queryFrame : Obligations.QueryFrame := by
  intro i s t hi h
  exact ⟨(exec_constructed h).resolve_right fun ⟨_, hop, _⟩ => hi hop, exec_frame h⟩

/-- Settles O51: the operation starts from states that differ in their histories only. -/
theorem nothingSurvivesAnOperationButConstructed : Obligations.NothingSurvivesAnOperationButConstructed := by
  intro i s u s' hs hu hsb hub hc ha h
  obtain ⟨u', hu', es, rs, hrun⟩ := exec_sameRun (hs.1 hsb) (hu.1 hub) hsb hub hc ha h
  exact ⟨u', es, rs, hu', hrun⟩

/-- Settles O16: each is a field of the reset state. -/
theorem resetLeavesNothingLatched : Obligations.ResetLeavesNothingLatched :=
  ⟨rfl, rfl, rfl, rfl, rfl, rfl, rfl, rfl, rfl, rfl, rfl, rfl⟩

/-- Settles O17, by `step_reset`. -/
theorem resetEventRestoresResetState : Obligations.ResetEventRestoresResetState := by
  intro s more hh
  rw [step_reset hh]
  simp [State.resetEvent, hh]

/-- Settles O38: the reset state is idle with nothing latched. -/
theorem resetMeetsTheInvariant : Obligations.ResetMeetsTheInvariant := reset_inv

end Machine

end Sys2Proof

/-! # Proofs about the bus: the tables, and when the transport answers

The layers, in order: the tables of spec/20_memory.md and the trace, answers that arrive late or never, how many
transactions an operation issues, the sequencer against the spec's pseudocode, and a command whose replies run out. -/

namespace Sys2Proof

namespace Machine

/-! ### The tables, and the trace of a command -/

/-- Settles O12: each row of R39 is an equation of `rad`. -/
theorem registerAddressDecoderTable : Obligations.RegisterAddressDecoderTable :=
  ⟨rfl, rfl, rfl, rfl⟩

/-- Settles O13: each operation's rows are its list in the sequence table. -/
theorem sequenceTableRows : Obligations.SequenceTableRows :=
  fun _ => ⟨rfl, rfl, rfl, rfl, rfl, rfl, rfl⟩

/-- Settles O44, by `exec_trace`. -/
theorem traceIsAPrefixOfTheSequence : Obligations.TraceIsAPrefixOfTheSequence := by
  intro i s t _ h
  obtain ⟨es, hes, hcont⟩ := exec_trace h
  exact ⟨es, hes, hcont.frames, hcont.succeeded⟩

/-! ### Answers that arrive late, or never -/

/-- Settles O23: a busy block with no answer lined up steps to itself (R49, R131). -/
theorem hungTransactionHangsTheBlock : Obligations.HungTransactionHangsTheBlock := by
  intro n s hb ha hr
  have hself : step s = .next s := by
    rw [step_busy hb hr, resume, ha, settle_nil, ← ha]
  exact run_of_step_self (M := core) hself n

/-- A command that leaves the block busy after some replies goes on from there with the answers behind them. -/
theorem exec_append {i : Instr} {s t : State} {rs : List Reply} (more : List Answer) (hs : s.busy = false)
    (ha : s.answers = rs.map .reply) (h : exec i s = .next t) (hb : t.busy = true) :
    exec i { s with answers := s.answers ++ more } = settle more t := by
  obtain ⟨hs', -⟩ | ⟨-, -, -, rfl⟩ | ⟨hacc, row, tx, hrow, htx, h⟩ := exec_cases h
  · simp [hs] at hs'
  · simp [hs] at hb
  · obtain ⟨row', tx', hrow', htx', he⟩ := exec_accepted_eq (s := { s with answers := s.answers ++ more }) hacc
    obtain rfl : row = row' := by simpa [hrow] using hrow'
    obtain rfl : tx = tx' := by simpa [htx] using htx'
    rw [ha] at h
    rw [he, ← settle_append h hb, ← ha]
    exact settle_answers _ { s.accept i.op i.opt with bus := some tx } _

/-- The same for a step, of a busy block or of one that accepts a command. -/
theorem step_append {s t : State} {rs : List Reply} (more : List Answer) (hr : s.host.head? ≠ some .reset)
    (ha : s.answers = rs.map .reply) (h : step s = .next t) (hb : t.busy = true) :
    step { s with answers := s.answers ++ more } = settle more t := by
  obtain ⟨_, hh, -⟩ | ⟨hs, -, rfl⟩ | ⟨hs, -, h⟩ | ⟨_, _, hs, -, -, rfl⟩ | ⟨w, next, i, hs, hh, hd, h⟩ := step_cases h
  · simp [hh] at hr
  · simp [hs] at hb
  · rw [resume, ha] at h
    rw [step_busy (s := { s with answers := s.answers ++ more }) hs hr, resume, settle_answers, ha, settle_append h hb]
  · simp [hs] at hb
  · rw [step_command (s := { s with answers := s.answers ++ more }) hs hh, runCommand_ok hd]
    exact exec_append (s := { s with host := next }) more hs ha h hb

/-- Settles O35: both sides are the sequencer run on the remaining answers, by `step_append`. -/
theorem arrivalTimesDoNotMatter : Obligations.ArrivalTimesDoNotMatter := by
  intro s t rs more hr h hb hrt
  calc step { s with answers := rs.map .reply ++ more }
    _ = settle more t := step_append (s := { s with answers := rs.map .reply }) more hr rfl h hb
    _ = settle more { t with answers := more } := (settle_answers more t more).symm
    _ = step { t with answers := more } := (step_busy (s := { t with answers := more }) hb hrt).symm

/-- Settles O55: the sequencer stops at `later`, at once or where the replies before it have brought the block. -/
theorem laterAnswerKeepsTheTransactionOutstanding : Obligations.LaterAnswerKeepsTheTransactionOutstanding := by
  refine ⟨fun s rest hb ha hr => ?_, fun s t rs rest hr h hb => ?_⟩
  · rw [step_busy hb hr, resume, ha, settle_later hb]
  · exact (step_append (s := { s with answers := rs.map .reply }) _ hr rfl h hb).trans (settle_later hb rest)

/-! ### How many transactions an operation issues -/

/-- The row that responds is the last of its sequence. -/
theorem length_of_respond {op : Op} {k : BitVec 3} {row : Row} (h : rowAt op k = some row)
    (ha : row.advance = .respond) : k.toNat + 1 = (sequence op).length := by
  have table : ∀ (op : Op) (k : BitVec 3), ∀ row ∈ rowAt op k, row.advance = .respond →
      k.toNat + 1 = (sequence op).length := by
    intro op
    cases op <;> decide
  exact table op k row h ha

/-- The gate follows the status pair (R104, R105). -/
theorem toNat_of_gate {op : Op} {k : BitVec 3} {row : Row} (h : rowAt op k = some row) (ha : row.advance = .gate) :
    k.toNat = 1 := by
  have table : ∀ (op : Op) (k : BitVec 3), ∀ row ∈ rowAt op k, row.advance = .gate → k.toNat = 1 := by
    intro op
    cases op <;> decide
  exact table op k row h ha

/-- `n` transactions of operation `op` have returned: at step `n` while it is in progress, and when it has ended, as
many as its response says (R115). -/
structure Counted (op : Op) (n : Nat) (s : State) : Prop where
  busy : s.busy = true → s.rsp = none ∧ s.curOp = some op ∧ ∃ k, s.stepIdx = some k ∧ k.toNat = n
  ok : ∀ d, s.rsp = some (.ok d) → n = (sequence op).length
  unavailable : s.rsp = some .unavailable → n = 2
  notRefused : s.rsp ≠ some .notConstructed

/-- The return of one transaction counts it. -/
theorem Counted.complete {op : Op} {n : Nat} {r : Reply} {s u : State} (hs : Counted op n s) (hb : s.busy = true)
    (hc : complete r s = .next u) : u.trace.length = s.trace.length + 1 ∧ Counted op (n + 1) u := by
  obtain ⟨hrsp, hop, k, hk, rfl⟩ := hs.busy hb
  obtain ⟨op', k', tx, row, hop', hk', -, hrow, hend⟩ := complete_cases hc
  obtain rfl : op = op' := by simpa [hop] using hop'
  obtain rfl : k = k' := by simpa [hk] using hk'
  obtain ⟨e, -, rfl⟩ | ⟨b0, b1, -, hadv⟩ := hend
  · -- TRANSPORT_ERROR: its count is not fixed
    exact ⟨by simp, by simp, by simp, by simp, by simp⟩
  obtain ⟨-, hissue, -⟩ | ⟨ha, v, -, rfl⟩ | ⟨ha, -, -, -, rfl⟩ := advance_cases hadv
  · obtain ⟨row', tx', -, -, rfl⟩ := issue_cases hissue
    refine ⟨by simp, fun _ => ⟨by simpa using hrsp, by simpa using hop, _, rfl, toNat_succ_of_rowAt hrow⟩, ?_, ?_, ?_⟩
      <;> simp [hrsp]
  · exact ⟨by simp [State.beforeOk], by simp, fun _ _ => length_of_respond hrow ha, by simp, by simp⟩
  · exact ⟨by simp, by simp, by simp, fun _ => by rw [toNat_of_gate hrow ha], by simp⟩

theorem settle_counted {op : Op} {as : List Answer} {s t : State} (hs : Counted op 0 s) (h : settle as s = .next t) :
    ∃ n, t.trace.length = s.trace.length + n ∧ Counted op n t := by
  refine settle_keeps (P := fun t => ∃ n, t.trace.length = s.trace.length + n ∧ Counted op n t) ?_ ?_ h ⟨0, rfl, hs⟩
  · exact fun u _ ⟨n, hn, hu⟩ => ⟨n, hn, { hu with }⟩
  · rintro r u v hb ⟨n, hn, hu⟩ hc
    obtain ⟨hlen, hv⟩ := hu.complete hb hc
    exact ⟨n + 1, by omega, hv⟩

/-- Settles O54: a refusal adds nothing, and an accepted command is counted by `settle_counted`. -/
theorem transactionCounts : Obligations.TransactionCounts := by
  intro i s t hb h
  obtain ⟨hb', -⟩ | ⟨-, -, -, rfl⟩ | ⟨-, row, tx, -, -, h⟩ := exec_cases h
  · simp [hb] at hb'
  · simp
  · have hstart : Counted i.op 0 { s.accept i.op i.opt with bus := some tx } :=
      ⟨fun _ => ⟨rfl, rfl, 0#3, rfl, rfl⟩, by simp, by simp, by simp⟩
    obtain ⟨n, hn, ht⟩ := settle_counted hstart h
    refine ⟨fun d hd => ?_, fun hu => ?_, fun hr => absurd hr ht.notRefused⟩
    · rw [hn, ht.ok d hd]
      cases i <;> rfl
    · rw [hn, ht.unavailable hu, State.accept_trace]

/-! ### The sequencer and the spec's pseudocode -/

namespace Pseudo

/-- A transaction of the pseudocode of any kind, and then `k` on the bytes of the reply (R10, R42, R43). -/
def transact (tx : Transaction) (k : Byte → Byte → List Reply → Option Ending) : List Reply → Option Ending
  | [] => none
  | .err e :: rs => some ⟨[failed tx e], .transportError e, rs⟩
  | .ok b0 b1 :: rs => (k b0 b1 rs).map fun d => { d with entries := ⟨tx, .ok (received tx b0 b1)⟩ :: d.entries }

theorem write_eq (bytes : List Byte) (k : List Reply → Option Ending) :
    write bytes k = transact (busWrite bytes) fun _ _ => k := by
  funext rs
  rcases rs with _ | ⟨_ | _, rs⟩ <;> rfl

theorem read1_eq (k : Byte → List Reply → Option Ending) : read1 k = transact (busRead 1) fun b _ => k b := by
  funext rs
  rcases rs with _ | ⟨_ | _, rs⟩ <;> rfl

theorem read2_eq (k : Byte → Byte → List Reply → Option Ending) : read2 k = transact (busRead 2) k := by
  funext rs
  rcases rs with _ | ⟨_ | _, rs⟩ <;> rfl

end Pseudo

/-- The state in which a block with the records of `s` is when operation `op` has ended as `d` says. -/
def Ending.state (d : Ending) (op : Op) (s : State) (tail : List Answer) : State :=
  State.ended { s with constructed := s.constructed || (decide (op = .configure) && decide (d.response = .ok 0)) }
    d.entries d.response (d.rest.map .reply ++ tail)

/-- The block in state `u`, with the records of `s`, does what the pseudocode `c` does (R48, R49): on replies on which
`c` ends it ends as `c` says, and on replies that run out before `c` ends it is left busy. -/
structure CarriesOut (op : Op) (s : State) (c : List Reply → Option Ending) (u : State) : Prop where
  ends : ∀ {rs tail d}, c rs = some d → settle (rs.map .reply ++ tail) u = .next (d.state op s tail)
  waits : ∀ {rs}, c rs = none → ∃ t, settle (rs.map .reply) u = .next t ∧ t.busy = true

/-- The state in which transaction `tx` of row `k` has been issued (R18, R49). -/
def State.issued (s : State) (k : BitVec 3) (tx : Transaction) : State := { s with stepIdx := some k, bus := some tx }

namespace CarriesOut

variable {op : Op} {s : State}

theorem respond (r : Response) : CarriesOut op s (Pseudo.respond r)
    (State.respond { s with constructed := s.constructed || (decide (op = .configure) && decide (r = .ok 0)) } r) where
  ends := by
    rintro rs tail d ⟨⟩
    rw [settle_idle (State.respond_busy _ _)]
    simp [Ending.state, State.ended, State.respond]
  waits := by rintro rs ⟨⟩

/-- A query's response leaves `constructed` as it was. -/
theorem respond_query (hop : op ≠ .configure) (r : Response) : CarriesOut op s (Pseudo.respond r) (s.respond r) := by
  simpa [hop] using respond (op := op) (s := s) r

/-- CONFIGURE's response sets `constructed` (R83). -/
theorem respond_configure : CarriesOut .configure s (Pseudo.respond (.ok 0)) (s.construct.respond (.ok 0)) := by
  simpa [State.construct] using respond (op := .configure) (s := s) (.ok 0)

/-- A transaction is carried out if what follows its `ok` is: an `err` ends pseudocode and operation alike (R117). -/
theorem transact {k : BitVec 3} {row : Row} {tx : Transaction} {c : Byte → Byte → List Reply → Option Ending}
    (hb : s.busy = true) (hop : s.curOp = some op) (hrow : rowAt op k = some row)
    (h : ∀ b0 b1, ∃ u, advance op k row.advance ((s.issued k tx).received row tx b0 b1) = .next u ∧
      CarriesOut op ((s.issued k tx).received row tx b0 b1) (c b0 b1) u) :
    CarriesOut op s (Pseudo.transact tx c) (s.issued k tx) where
  ends := by
    rintro (_ | ⟨⟨b0, b1⟩ | e, rs⟩) tail d hd
    · cases hd
    · obtain ⟨d, hd', rfl⟩ := Option.map_eq_some_iff.mp hd
      obtain ⟨u, hu, hc⟩ := h b0 b1
      have hret := (complete_ok (s := s.issued k tx) b0 b1 hop rfl rfl hrow).trans hu
      rw [List.map_cons, List.cons_append, settle_reply_next (s := s.issued k tx) hb hret, hc.ends hd']
      simp [Ending.state, State.ended, State.issued]
    · cases hd
      have hret := complete_err (s := s.issued k tx) e hop rfl rfl hrow
      rw [List.map_cons, List.cons_append, settle_reply_next (s := s.issued k tx) hb hret, settle_idle rfl]
      simp [Ending.state, State.ended, State.issued, State.respond, failed]
  waits := by
    rintro (_ | ⟨⟨b0, b1⟩ | e, rs⟩) hd
    · exact ⟨_, rfl, hb⟩
    · obtain ⟨u, hu, hc⟩ := h b0 b1
      have hret := (complete_ok (s := s.issued k tx) b0 b1 hop rfl rfl hrow).trans hu
      rw [List.map_cons, settle_reply_next (s := s.issued k tx) hb hret]
      exact hc.waits (Option.map_eq_none_iff.mp hd)
    · cases hd

end CarriesOut

/-- The pseudocode of each command, transaction by transaction along its rows of the sequence table (R48). -/
theorem accept_carriesOut (i : Instr) (s : State) : ∃ tx,
    issue i.op 0#3 (s.accept i.op i.opt) = .next ((s.accept i.op i.opt).issued 0#3 tx) ∧
      CarriesOut i.op (s.accept i.op i.opt) (Pseudo.run i) ((s.accept i.op i.opt).issued 0#3 tx) := by
  cases i with
  | configure h pm wd fft sf pwm os =>
    rw [Pseudo.run, Pseudo.configure, Pseudo.write_eq]
    exact ⟨_, rfl, .transact rfl rfl rfl fun _ _ => ⟨_, rfl, .respond_configure⟩⟩
  | getStatus =>
    simp only [Pseudo.run, Pseudo.getStatus, Pseudo.write_eq, Pseudo.read1_eq, ← packStatus_eq]
    exact ⟨_, rfl, .transact rfl rfl rfl fun _ _ => ⟨State.issued _ 1#3 (busRead 1), rfl,
      .transact rfl rfl rfl fun _ _ => ⟨State.issued _ 2#3 (busWrite [Config.regAgc]), rfl,
      .transact rfl rfl rfl fun _ _ => ⟨State.issued _ 3#3 (busRead 1), rfl,
      .transact rfl rfl rfl fun _ _ => ⟨_, rfl, .respond_query (by decide) _⟩⟩⟩⟩⟩
  | isOk =>
    simp only [Pseudo.run, Pseudo.isOk, Pseudo.write_eq, Pseudo.read1_eq, ← statusOk_eq_true_iff]
    refine ⟨_, rfl, .transact rfl rfl rfl fun _ _ => ⟨State.issued _ 1#3 (busRead 1), rfl,
      .transact rfl rfl rfl fun st _ => ⟨State.respond _ (.ok (packOk (statusOk st))), rfl, ?_⟩⟩⟩
    rw [packOk_eq]
    exact .respond_query (by decide) _
  | getAngleDeg =>
    simp only [Pseudo.run, Pseudo.getAngleDeg, Pseudo.write_eq, Pseudo.read1_eq, Pseudo.read2_eq, ← word16_toNat,
      ← scale_eq, ← statusOk_eq_true_iff]
    refine ⟨_, rfl, .transact rfl rfl rfl fun _ _ => ⟨State.issued _ 1#3 (busRead 1), rfl,
      .transact rfl rfl rfl fun st _ => ?_⟩⟩
    by_cases hok : statusOk st = true
    · refine ⟨State.issued _ 2#3 (busWrite [Config.regAngle]), if_pos hok, ?_⟩
      rw [if_pos hok]
      exact .transact rfl rfl rfl fun _ _ => ⟨State.issued _ 3#3 (busRead 2), rfl,
        .transact rfl rfl rfl fun _ _ => ⟨_, rfl, .respond_query (by decide) _⟩⟩
    · refine ⟨State.respond _ .unavailable, if_neg hok, ?_⟩
      rw [if_neg hok]
      exact .respond_query (by decide) _
  | getRawAngle | getAngleDegFast | getRawConfig =>
    simp only [Pseudo.run, Pseudo.getRawAngle, Pseudo.getAngleDegFast, Pseudo.getRawConfig, Pseudo.write_eq,
      Pseudo.read2_eq, ← word16_toNat, ← packHalf_eq, ← scale_eq]
    exact ⟨_, rfl, .transact rfl rfl rfl fun _ _ => ⟨State.issued _ 1#3 (busRead 2), rfl,
      .transact rfl rfl rfl fun _ _ => ⟨_, rfl, .respond_query (by decide) _⟩⟩⟩

/-- An accepted command runs the sequencer on its answers from a state that carries out its pseudocode. -/
theorem exec_carriesOut {i : Instr} {s : State} (h : s.Accepts i) : ∃ tx,
    exec i s = settle s.answers ((s.accept i.op i.opt).issued 0#3 tx) ∧
      CarriesOut i.op s (Pseudo.run i) ((s.accept i.op i.opt).issued 0#3 tx) := by
  obtain ⟨tx, hissue, hc⟩ := accept_carriesOut i s
  exact ⟨tx, by rw [exec_accepted h, startOperation_eq hissue], hc.ends, hc.waits⟩

/-! ### A command whose replies run out -/

/-- Replies that leave the block busy have all been used. -/
theorem settle_replies_answers {rs : List Reply} {s t : State} (h : settle (rs.map .reply) s = .next t)
    (hb : t.busy = true) : t.answers = [] := by
  have hmore := settle_append (more := []) h hb
  rw [List.append_nil, h, settle_nil] at hmore
  injection hmore with hmore
  exact congrArg State.answers hmore

/-- While busy, a transaction is on the bus and no response is on the response port (R49, R143). -/
def State.Waiting (s : State) : Prop := s.busy = true → s.bus ≠ none ∧ s.rsp = none

theorem settle_waiting {as : List Answer} {s t : State} (hs : s.Waiting) (h : settle as s = .next t) : t.Waiting := by
  refine settle_keeps (P := State.Waiting) (fun _ _ => id) ?_ h hs
  intro r u v hb hu hc
  obtain ⟨op, k, tx, row, -, -, -, -, ⟨b0, b1, row', tx', -, -, -, rfl⟩ | ⟨c, x, rfl, -⟩⟩ := complete_next_or_ended hc
  · exact fun _ => ⟨by simp, by simpa using (hu hb).2⟩
  · exact fun hb' => by simp at hb'

/-- Settles O34: `exec_carriesOut` leaves the block busy, and what the sequencer keeps gives the rest. -/
theorem missingAnswerLeavesATransactionOutstanding : Obligations.MissingAnswerLeavesATransactionOutstanding := by
  intro i s rs hacc ha hnone
  obtain ⟨tx, hexec, hc⟩ := exec_carriesOut hacc
  obtain ⟨t, ht, hb⟩ := hc.waits hnone
  have hwaiting : State.Waiting ((s.accept i.op i.opt).issued 0#3 tx) := fun _ => ⟨nofun, rfl⟩
  obtain ⟨hbus, hrsp⟩ := settle_waiting hwaiting ht hb
  have hconstructed : t.constructed = s.constructed := by
    obtain ⟨hcon, -⟩ | ⟨-, -, hidle, -⟩ := settle_constructed ht
    · exact hcon
    · simp [hb] at hidle
  have hresponses : t.responses = s.responses := by
    obtain ⟨-, hresp⟩ | ⟨hidle, -⟩ := settle_delivers rfl ht
    · exact hresp
    · simp [hb] at hidle
  exact ⟨t, by rw [hexec, ha, ht], hb, hbus, settle_replies_answers ht hb, hrsp, hconstructed, (settle_frame ht).1,
    hresponses⟩

end Machine

end Sys2Proof

/-! # Proofs about the encodings: the command word, the configuration bytes, the response word

The layers, in order: the decoder, the command word and its command, the configuration bytes, the response word, the
step that decodes a command, and how many replies end an operation. -/

namespace Sys2Proof

/-! ### The decoder -/

theorem decode_of_opField_zero {w : CommandWord} (h : opField w = 0#3) : decode w = .ok (decodeConfigure w) := by
  simp [decode, h]

/-- Only `op = 0` looks past `CMD[2:0]` (R61, R65). -/
theorem decode_congr {v w : CommandWord} (h0 : opField w ≠ 0#3) (h : opField v = opField w) : decode v = decode w := by
  unfold decode
  rw [h]
  split
  next hop => exact absurd (BitVec.eq_of_toNat_eq hop) h0
  all_goals rfl

/-- The only reserved code is 7 (R64). -/
theorem decode_eq_illegalOp_iff (w : CommandWord) : decode w = .error .illegalOp ↔ opField w = 7#3 := by
  refine ⟨fun h => ?_, fun h => by simp [decode, h]⟩
  unfold decode at h
  split at h <;> cases h
  case h_8 =>
    -- none of the codes 0 to 6 is left, and `op` has three bits
    simp only [imp_false] at *
    apply BitVec.eq_of_toNat_eq
    rw [BitVec.toNat_ofNat]
    omega

/-- `CMD[2:0]` of a word that decodes is its command's code (R62). -/
theorem opField_of_decode {w : CommandWord} {i : Instr} (h : decode w = .ok i) : opField w = i.opCode := by
  unfold decode at h
  split at h <;> cases h
  all_goals exact BitVec.eq_of_toNat_eq ‹_›

/-! ### The command word and its command -/

theorem toInt_encodeOption {v : Int} (h : IsInt8 v) : (encodeOption v).toInt = v :=
  BitVec.toInt_ofInt_eq_self (by decide) h.1 (Int.lt_add_one_of_le h.2)

theorem encodeOption_optionField (w : CommandWord) (lo : Nat) : encodeOption (optionField w lo) = w.extractLsb' lo 8 :=
  BitVec.ofInt_toInt

/-- Each option field of a CONFIGURE word is the option it was made from (R60). -/
theorem decodeConfigure_encode {h pm wd fft sf pwm os : Int}
    (hw : (Instr.configure h pm wd fft sf pwm os).wellFormed = true) :
    decodeConfigure (encode (.configure h pm wd fft sf pwm os)) = .configure h pm wd fft sf pwm os := by
  simp only [Instr.wellFormed, Bool.and_eq_true, decide_eq_true_eq] at hw
  obtain ⟨⟨⟨⟨⟨⟨hh, hpm⟩, hwd⟩, hfft⟩, hsf⟩, hpwm⟩, hos⟩ := hw
  simp (disch := decide) only [decodeConfigure, optionField, encode, BitVec.extractLsb'_append_eq_of_le, Nat.reduceSub,
    Nat.sub_self, BitVec.extractLsb'_append_eq_right, BitVec.extractLsb'_eq_self]
  rw [toInt_encodeOption hh, toInt_encodeOption hpm, toInt_encodeOption hwd, toInt_encodeOption hfft,
    toInt_encodeOption hsf, toInt_encodeOption hpwm, toInt_encodeOption hos]

/-- The fields of R60 and the code 0 are the whole of a CONFIGURE word. -/
theorem encode_decodeConfigure {w : CommandWord} (h : opField w = 0#3) : encode (decodeConfigure w) = w := by
  simp only [decodeConfigure, encode, encodeOption_optionField, ← h, opField]
  iterate 7 rw [BitVec.extractLsb'_append_extractLsb'_eq_extractLsb']
  · exact BitVec.extractLsb'_eq_self
  all_goals rfl

theorem encode_query {i : Instr} (hi : i.IsQuery) : encode i = encodeQuery i.opCode := by
  cases i with
  | configure => exact absurd rfl hi
  | _ => rfl

/-- Settles O2: CONFIGURE's fields are read back one by one, and a query is its code. -/
theorem decodeOfEncodeIsTheCommand : Obligations.DecodeOfEncodeIsTheCommand := by
  intro i hi
  cases i with
  | configure h pm wd fft sf pwm os =>
    rw [decode_of_opField_zero (Laws.OpField.configure h pm wd fft sf pwm os), decodeConfigure_encode hi]
  | getStatus | isOk | getRawAngle | getAngleDeg | getAngleDegFast | getRawConfig => rfl

/-- Settles O3: a query's word is its code under ignored bits, a CONFIGURE word is its fields. -/
theorem encodeOfDecodeIsTheWord : Obligations.EncodeOfDecodeIsTheWord := by
  intro w i h
  refine ⟨decode_wellFormed h, fun hi => ?_, fun hi => ?_⟩
  · rw [encode_query hi, opField_of_decode h, encodeQuery]
  · have hop := opField_of_decode_configure h (not_not.mp hi)
    obtain rfl : decodeConfigure w = i := by simpa [decode_of_opField_zero hop] using h
    exact encode_decodeConfigure hop

/-- Settles O4: a query word is decoded from its code alone, and a CONFIGURE word is the encoding of its command. -/
theorem onlyQueriesIgnoreBitsAndOnlyOpSevenIsIllegal : Obligations.OnlyQueriesIgnoreBitsAndOnlyOpSevenIsIllegal := by
  refine ⟨fun w v h0 h => ?_, fun w v hw hv h => ?_, decode_eq_illegalOp_iff⟩
  · have hd := decode_congr h0 h
    exact ⟨hd, fun s => by rw [Machine.runCommand, hd, Machine.runCommand]⟩
  · rw [decode_of_opField_zero hv, decode_of_opField_zero hw] at h
    injection h with h
    rw [← encode_decodeConfigure hv, h, encode_decodeConfigure hw]

/-- Settles O1: the decoder evaluates on each word. -/
theorem writtenOutWordsDecode : Obligations.WrittenOutWordsDecode := by
  unfold Obligations.WrittenOutWordsDecode
  decide

namespace Machine

/-! ### The configuration bytes -/

theorem fld_natCast {n max : Nat} (h : n ≤ max) : fld n max = n := by
  exact_mod_cast fld_of_mem (v := n) ⟨by omega, by omega⟩

/-- Every field fits its place (R84). -/
theorem fields_le (o : Options) :
    fld o.watchdog 1 ≤ 1 ∧ fld o.fastFilterThreshold 7 ≤ 7 ∧ fld o.slowFilter 3 ≤ 3 ∧ fld o.pwmFrequency 3 ≤ 3 ∧
      fld o.outputStage 1 ≤ 1 ∧ fld o.hysteresis 3 ≤ 3 ∧ fld o.powerMode 3 ≤ 3 :=
  ⟨fld_le _ _, fld_le _ _, fld_le _ _, fld_le _ _, fld_le _ _, fld_le _ _, fld_le _ _⟩

theorem c1_toNat (o : Options) :
    (c1 o).toNat = 32 * fld o.watchdog 1 + 4 * fld o.fastFilterThreshold 7 + fld o.slowFilter 3 := by
  have hle := fields_le o
  rw [c1, c1Value_eq, BitVec.toNat_ofNat, Nat.mod_eq_of_lt (by omega)]

theorem c2_toNat (o : Options) :
    (c2 o).toNat =
      64 * fld o.pwmFrequency 3 + 16 * fld o.outputStage 1 + 4 * fld o.hysteresis 3 + fld o.powerMode 3 := by
  have hle := fields_le o
  rw [c2, c2Value_eq, BitVec.toNat_ofNat, Nat.mod_eq_of_lt (by omega)]

/-- A field of a byte as a number. -/
theorem extractLsb'_toNat_eq (b : Byte) (lo len : Nat) : (b.extractLsb' lo len).toNat = b.toNat / 2 ^ lo % 2 ^ len := by
  rw [BitVec.extractLsb'_toNat, Nat.shiftRight_eq_div_pow]

/-- Bit 5 of a byte as a number. -/
theorem getLsbD_five_eq_false_iff (b : Byte) : b.getLsbD 5 = false ↔ b.toNat / 32 % 2 = 0 := by
  rw [← BitVec.testBit_toNat, Nat.testBit_eq_decide_div_mod_eq, decide_eq_false_iff_not]
  omega

theorem c1_lt (o : Options) : (c1 o).toNat < 64 := by
  have hle := fields_le o
  have hC1 := c1_toNat o
  omega

theorem c2_bit_five (o : Options) : (c2 o).getLsbD 5 = false := by
  have hle := fields_le o
  rw [getLsbD_five_eq_false_iff, c2_toNat]
  omega

/-- Options whose configuration bytes are `b1` and `b2`, if these are bytes the encoder can give (R86 (e)). -/
def Options.ofBytes (b1 b2 : Byte) : Options where
  watchdog := (b1.toNat / 32 : Nat)
  fastFilterThreshold := (b1.toNat / 4 % 8 : Nat)
  slowFilter := (b1.toNat % 4 : Nat)
  pwmFrequency := (b2.toNat / 64 : Nat)
  outputStage := (b2.toNat / 16 % 2 : Nat)
  hysteresis := (b2.toNat / 4 % 4 : Nat)
  powerMode := (b2.toNat % 4 : Nat)

theorem c1_ofBytes {b1 : Byte} (h : b1.toNat < 64) (b2 : Byte) : c1 (.ofBytes b1 b2) = b1 := by
  apply BitVec.eq_of_toNat_eq
  rw [c1_toNat, Options.ofBytes, fld_natCast (by omega), fld_natCast (by omega), fld_natCast (by omega)]
  omega

theorem c2_ofBytes (b1 : Byte) {b2 : Byte} (h : b2.getLsbD 5 = false) : c2 (.ofBytes b1 b2) = b2 := by
  have hlt := b2.isLt
  rw [getLsbD_five_eq_false_iff] at h
  apply BitVec.eq_of_toNat_eq
  rw [c2_toNat, Options.ofBytes, fld_natCast (by omega), fld_natCast (by omega), fld_natCast (by omega),
    fld_natCast (by omega)]
  omega

/-- Settles O6, from the bytes as sums of fields that fit their places. -/
theorem configurationFieldsAreDisjoint : Obligations.ConfigurationFieldsAreDisjoint := by
  intro o
  have hle := fields_le o
  have hC1 := c1_toNat o
  have hC2 := c2_toNat o
  refine ⟨hC1, hC2, by omega, by omega, ?_, c2_bit_five o⟩
  apply BitVec.eq_of_toNat_eq
  rw [extractLsb'_toNat_eq, BitVec.toNat_ofNat]
  omega

/-- Settles O7: the fields are digits of the sums, and `Options.ofBytes` gives every byte of the two ranges. -/
theorem configurationOptionsAreRecovered : Obligations.ConfigurationOptionsAreRecovered := by
  refine ⟨fun o => ?_, fun b => ⟨?_, fun h => ⟨_, c1_ofBytes h 0⟩⟩, fun b => ⟨?_, fun h => ⟨_, c2_ofBytes 0 h⟩⟩⟩
  · have hle := fields_le o
    simp only [extractLsb'_toNat_eq, c1_toNat, c2_toNat]
    refine ⟨?_, ?_, ?_, ?_, ?_, ?_, ?_⟩ <;> omega
  · rintro ⟨o, rfl⟩
    exact c1_lt o
  · rintro ⟨o, rfl⟩
    exact c2_bit_five o

/-! ### The response word -/

/-- The response with a given code, data and error value: the reading of a response word (R66). -/
def Response.ofParts (code : BitVec 3) (data : Data) (err : Option TransportErr) : Response :=
  match err, code.toNat with
  | some e, _ => .transportError e
  | none, 0 => .ok data
  | none, 1 => .unavailable
  | none, 3 => .notConstructed
  | none, _ => .illegalOp

theorem Response.ofParts_eq (r : Response) : .ofParts r.code r.data r.err = r := by
  cases r <;> rfl

theorem Response.word_code (r : Response) : r.word.extractLsb' 0 3 = r.code := append_low r.data r.code

theorem Response.word_data (r : Response) : r.word.extractLsb' 3 22 = r.data := append_high r.data r.code

/-- Settles O14: code and data are the two parts of the word, and `Response.ofParts` reads the response back. -/
theorem responseWordDeterminesTheResponse : Obligations.ResponseWordDeterminesTheResponse := by
  refine ⟨fun r => ⟨r.word_code, r.word_data, ?_⟩, fun r q hword herr => ?_⟩
  · cases r <;> simp [Response.code, Response.data, Response.err]
  · calc r
      _ = .ofParts r.code r.data r.err := r.ofParts_eq.symm
      _ = .ofParts q.code q.data q.err := by
        rw [← r.word_code, ← r.word_data, hword, herr, q.word_code, q.word_data]
      _ = q := q.ofParts_eq

/-- R67 places no field in bits 21:11 of the GET_STATUS data. -/
theorem packStatus_high (d l h : Bool) (g : Byte) : (packStatus d l h g).extractLsb' 11 11 = 0#11 := by
  simp (disch := decide) only [packStatus, BitVec.extractLsb'_append_eq_of_le, Nat.reduceSub,
    BitVec.extractLsb'_eq_self]

/-- Settles O15: each result is a part of the concatenation that packs it. -/
theorem okDataLayout : Obligations.OkDataLayout := by
  refine ⟨fun d l h g => ⟨append_low _ g, ?mh, ?ml, ?md, packStatus_high d l h g⟩,
    fun b => ⟨?ok, append_high 0#21 _⟩, fun w => ⟨append_low _ w, append_high 0#6 w⟩⟩
  all_goals
    simp only [packStatus, packOk, BitVec.getLsbD_append]
    simp

/-! ### The step that decodes a command -/

/-- Settles O18, by `step_command`. -/
theorem stepRunsTheDecodedCommand : Obligations.StepRunsTheDecodedCommand := by
  intro s w more i hb hh hd
  rw [step_command hb hh, runCommand_ok hd]

/-- Settles O19: `op = 7` is illegal, and the refusal writes the response alone. -/
theorem reservedOpIsRefused : Obligations.ReservedOpIsRefused := by
  intro s w more hb hh hop
  refine ⟨?_, rfl, rfl⟩
  rw [step_command hb hh, runCommand_illegal ((decode_eq_illegalOp_iff w).mpr hop), State.refuse]

/-! ### How many replies end an operation -/

theorem issue_outstanding {op : Op} {k : BitVec 3} {s t : State} (h : issue op k s = .next t)
    (hop : s.curOp = some op) : t.Outstanding op k := by
  obtain ⟨row, tx, hrow, htx, rfl⟩ := issue_cases h
  exact ⟨hop, rfl, row, tx, hrow, htx, rfl⟩

/-- The return of the outstanding transaction brings the next row, or the end of the operation (R18). -/
theorem State.Outstanding.complete {r : Reply} {s u : State} {op : Op} {k : BitVec 3} (hs : s.Outstanding op k)
    (hc : complete r s = .next u) :
    u.busy = false ∨ (k + 1#3).toNat = k.toNat + 1 ∧ u.Outstanding op (k + 1#3) := by
  obtain ⟨op', k', tx, row, hop, hk, -, hrow, hu⟩ := complete_next_or_ended hc
  obtain rfl : op = op' := by simpa [hs.curOp] using hop
  obtain rfl : k = k' := by simpa [hs.stepIdx] using hk
  obtain ⟨b0, b1, row', tx', -, hrow', htx', rfl⟩ | ⟨c, x, rfl, -⟩ := hu
  · exact .inr ⟨toNat_succ_of_rowAt hrow, by simpa using hop, rfl, row', tx', hrow', by simpa using htx', rfl⟩
  · exact .inl rfl

/-- An idle block uses no answer, and stays idle (R138). -/
theorem settle_stays_idle {as : List Answer} {s t : State} (hs : s.busy = false) (h : settle as s = .next t) :
    t.busy = false := by
  rw [settle_idle hs] at h
  cases h
  exact hs

/-- As many replies as there are rows from the outstanding one on end the operation (R155). -/
theorem settle_replies_idle {rs : List Reply} {rest : List Answer} {s t : State} {op : Op} {k : BitVec 3}
    (hs : s.Outstanding op k) (hlen : (sequence op).length ≤ k.toNat + rs.length)
    (h : settle (rs.map .reply ++ rest) s = .next t) : t.busy = false := by
  induction rs generalizing s k with
  | nil =>
    obtain ⟨row, tx, hrow, -, -⟩ := hs.issued
    have hk := (List.getElem?_eq_some_iff.mp hrow).1
    rw [List.length_nil] at hlen
    omega
  | cons r rs ih =>
    cases hb : s.busy with
    | false => exact settle_stays_idle hb h
    | true =>
      rw [List.map_cons, List.cons_append, settle_reply hb] at h
      split at h
      next u hc =>
        obtain hu | ⟨hk, hu⟩ := hs.complete hc
        · exact settle_stays_idle hu h
        · rw [List.length_cons] at hlen
          exact ih hu (by omega) h
      all_goals cases h

/-- No sequence has more than four rows (R48). -/
theorem settle_four_replies_idle {r0 r1 r2 r3 : Reply} {rest : List Answer} {s t : State} {op : Op} {k : BitVec 3}
    (hs : s.Outstanding op k)
    (h : settle (.reply r0 :: .reply r1 :: .reply r2 :: .reply r3 :: rest) s = .next t) : t.busy = false := by
  refine settle_replies_idle (rs := [r0, r1, r2, r3]) hs ?_ h
  exact (sequence_length_le op).trans (Nat.le_add_left 4 _)

/-- Settles O52: the command is refused, or its pseudocode ends on the four replies. -/
theorem fourRepliesEndAnyCommand : Obligations.FourRepliesEndAnyCommand := by
  intro i s r0 r1 r2 r3 rest hb ha
  by_cases hq : i.IsQuery → s.constructed = true
  · obtain ⟨tx, hissue, hcarries⟩ := accept_carriesOut i s
    have hexec := (exec_accepted ⟨hb, hq⟩).trans (startOperation_eq hissue)
    cases hrun : Pseudo.run i [r0, r1, r2, r3] with
    | some d =>
      have hends := hcarries.ends (tail := rest) hrun
      exact ⟨_, d.response, by rw [hexec, ha]; exact hends, rfl, rfl, rfl⟩
    | none =>
      obtain ⟨t, ht, hbusy⟩ := hcarries.waits hrun
      have hidle := settle_four_replies_idle (issue_outstanding hissue rfl) ht
      simp [hbusy] at hidle
  · obtain ⟨hi, hc⟩ := Classical.not_imp.mp hq
    exact ⟨_, _, exec_refused hb (by simpa using hc) hi, hb, rfl, rfl⟩

/-- Settles O53: the invariant gives the next state, and after four replies it is idle. -/
theorem fourRepliesEndAnOperationInProgress : Obligations.FourRepliesEndAnOperationInProgress := by
  intro s r0 r1 r2 r3 rest hs hb hr ha
  obtain ⟨op, k, hbusy⟩ := hs.2 hb
  obtain ⟨t, ht, -⟩ := settle_inv hs s.answers
  have hidle := settle_four_replies_idle hbusy.outstanding (ha ▸ ht)
  obtain ⟨hb', -⟩ | ⟨-, r, hresp, hrsp⟩ := settle_delivers hb ht
  · simp [hidle] at hb'
  · exact ⟨t, r, by rw [step_busy hb hr, resume, ht], hidle, hrsp, hresp⟩

end Machine

end Sys2Proof

/-! # Proofs about CONFIGURE

The layers, in order: the refinement to the spec's pseudocode, what CONFIGURE does to an idle block, its frame, and the
range policy of its options. -/

namespace Sys2Proof

namespace Machine

/-! ### The refinement -/

/-- Settles O33: the state in which the command's first transaction is outstanding carries out the pseudocode. -/
theorem sequencerCarriesOutThePseudocode : Obligations.SequencerCarriesOutThePseudocode := by
  intro i s rs tail d hacc ha hrun
  obtain ⟨tx, hexec, hcarries⟩ := exec_carriesOut hacc
  rw [hexec, ha]
  exact hcarries.ends hrun

/-! ### CONFIGURE on an idle block -/

/-- CONFIGURE is never refused (R83, R123). -/
theorem accepts_configure {h pm wd fft sf pwm os : Int} {s : State} (hb : s.busy = false) :
    s.Accepts (.configure h pm wd fft sf pwm os) :=
  ⟨hb, fun hq => absurd rfl hq⟩

/-- With no reply to its first transaction, a command delivers no response and leaves `constructed` as it was (R49,
R131). -/
theorem exec_waits {i : Instr} {s : State} (hacc : s.Accepts i) (ha : ∀ r rest, s.answers ≠ .reply r :: rest) :
    ∃ t, exec i s = .next t ∧ t.rsp = none ∧ t.constructed = s.constructed := by
  obtain ⟨row, tx, -, -, hexec⟩ := exec_accepted_eq hacc
  rw [hexec]
  rcases has : s.answers with _ | ⟨_ | r, rest⟩
  · exact ⟨_, settle_nil _, rfl, rfl⟩
  · exact ⟨_, settle_later rfl rest, rfl, rfl⟩
  · exact absurd has (ha r rest)

/-- Settles O24: the pseudocode of CONFIGURE ends on one reply, and the sequencer carries it out. -/
theorem configureWritesTheConfiguration : Obligations.ConfigureWritesTheConfiguration := by
  intro h pm wd fft sf pwm os s rest hb frame
  refine ⟨fun b0 b1 ha => ?_, fun e ha => ?_⟩
  · simpa [Instr.op] using
      sequencerCarriesOutThePseudocode _ s [.ok b0 b1] rest ⟨[wrote frame], .ok 0, []⟩ (accepts_configure hb) ha rfl
  · simpa [Instr.op] using
      sequencerCarriesOutThePseudocode _ s [.err e] rest ⟨[failed (busWrite frame) e], .transportError e, []⟩
        (accepts_configure hb) ha rfl

/-- CONFIGURE on an idle block waits for its reply, or responds `OK` and constructs, or raises the exception and leaves
`constructed` as it was (R83, R88). -/
theorem exec_configure_cases {h pm wd fft sf pwm os : Int} {s t : State} (hb : s.busy = false)
    (hexec : exec (.configure h pm wd fft sf pwm os) s = .next t) :
    (t.rsp = none ∧ t.constructed = s.constructed) ∨ (t.rsp = some (.ok 0) ∧ t.constructed = true) ∨
      ∃ e, t.rsp = some (.transportError e) ∧ t.constructed = s.constructed := by
  by_cases ha : ∃ r rest, s.answers = .reply r :: rest
  · obtain ⟨r, rest, ha⟩ := ha
    obtain ⟨hok, herr⟩ := configureWritesTheConfiguration h pm wd fft sf pwm os s rest hb
    cases r with
    | ok b0 b1 =>
      cases hexec.symm.trans (hok b0 b1 ha)
      exact .inr (.inl ⟨rfl, rfl⟩)
    | err e =>
      cases hexec.symm.trans (herr e ha)
      exact .inr (.inr ⟨e, rfl, rfl⟩)
  · obtain ⟨u, hu, hrsp, hcon⟩ := exec_waits (accepts_configure hb) fun r rest hr => ha ⟨r, rest, hr⟩
    cases hexec.symm.trans hu
    exact .inl ⟨hrsp, hcon⟩

/-- Settles O50: the frame of every command, and `constructed` follows the response in each case of CONFIGURE. -/
theorem configureFrame : Obligations.ConfigureFrame := by
  intro i s t hb hi hexec
  obtain ⟨hhost, htrace, hresponses, hanswers⟩ := exec_frame hexec
  refine ⟨hhost, htrace, hresponses, hanswers, ?_⟩
  cases i with
  | configure =>
    obtain ⟨hrsp, hcon⟩ | ⟨hrsp, hcon⟩ | ⟨e, hrsp, hcon⟩ := exec_configure_cases hb hexec <;> simp [hrsp, hcon]
  | getStatus | isOk | getRawAngle | getAngleDeg | getAngleDegFast | getRawConfig => exact absurd nofun hi

/-! ### The range policy -/

/-- Outside `0..max` the range check does not tell a value from 0 (R84). -/
theorem fld_eq_fld_zero {v : Int} {max : Nat} (h : v < 0 ∨ (max : Int) < v) : fld v max = fld 0 max := by
  rw [fld_zero, fld_of_not_mem (by omega)]

/-- The configuration word reads the options through their range checks only (R84, R85). -/
theorem confWord_congr {o p : Options} (hh : fld o.hysteresis 3 = fld p.hysteresis 3)
    (hpm : fld o.powerMode 3 = fld p.powerMode 3) (hwd : fld o.watchdog 1 = fld p.watchdog 1)
    (hfft : fld o.fastFilterThreshold 7 = fld p.fastFilterThreshold 7) (hsf : fld o.slowFilter 3 = fld p.slowFilter 3)
    (hpwm : fld o.pwmFrequency 3 = fld p.pwmFrequency 3) (hos : fld o.outputStage 1 = fld p.outputStage 1) :
    confWord o = confWord p := by
  simp only [confWord, c1, c2, c1Value, c2Value, hh, hpm, hwd, hfft, hsf, hpwm, hos]

/-- Settles O5: the word reads each option through its own range check, and CONFIGURE reads no option otherwise. -/
theorem outOfRangeOptionsCountAsZero : Obligations.OutOfRangeOptionsCountAsZero := by
  refine ⟨fun v max => ⟨fld_of_mem, fun h => (fld_eq_fld_zero h).trans (fld_zero max)⟩,
    fun o v => ⟨?hysteresis, ?powerMode, ?watchdog, ?fastFilterThreshold, ?slowFilter, ?pwmFrequency, ?outputStage⟩,
    ?noError⟩
  case hysteresis => exact fun h => confWord_congr (fld_eq_fld_zero h) rfl rfl rfl rfl rfl rfl
  case powerMode => exact fun h => confWord_congr rfl (fld_eq_fld_zero h) rfl rfl rfl rfl rfl
  case watchdog => exact fun h => confWord_congr rfl rfl (fld_eq_fld_zero h) rfl rfl rfl rfl
  case fastFilterThreshold => exact fun h => confWord_congr rfl rfl rfl (fld_eq_fld_zero h) rfl rfl rfl
  case slowFilter => exact fun h => confWord_congr rfl rfl rfl rfl (fld_eq_fld_zero h) rfl rfl
  case pwmFrequency => exact fun h => confWord_congr rfl rfl rfl rfl rfl (fld_eq_fld_zero h) rfl
  case outputStage => exact fun h => confWord_congr rfl rfl rfl rfl rfl rfl (fld_eq_fld_zero h)
  case noError =>
    intro h pm wd fft sf pwm os s b0 b1 rest hb ha
    obtain ⟨hok, -⟩ := configureWritesTheConfiguration h pm wd fft sf pwm os s rest hb
    exact ⟨_, hok b0 b1 ha, rfl⟩

end Machine

end Sys2Proof

/-! # Proofs about the status queries

The layers, in order: the status byte, a query on an idle constructed block, and the statements of spec/41_status.md. -/

namespace Sys2Proof

namespace Machine

/-! ### The status byte -/

/-- A bit of a byte as the test of its one-bit mask. -/
theorem getLsbD_eq_true_iff_and_twoPow_ne {s : Byte} {i : Nat} (hi : i < 8) :
    s.getLsbD i = true ↔ s &&& BitVec.twoPow 8 i ≠ 0#8 := by
  have hmask : BitVec.twoPow 8 i ≠ 0#8 := by simp [← BitVec.toNat_inj, Nat.mod_eq_of_lt (Nat.pow_lt_pow_right _ hi)]
  simp [BitVec.and_twoPow, hmask]

theorem statusOk_eq_true_iff_bits (s : Byte) : statusOk s = true ↔ md s = true ∧ mh s = false ∧ ml s = false := by
  simp [statusOk, and_assoc]

theorem mh_mask (s : Byte) : mh (s &&& 0x38#8) = mh s := by simp [mh]

theorem ml_mask (s : Byte) : ml (s &&& 0x38#8) = ml s := by simp [ml]

theorem md_mask (s : Byte) : md (s &&& 0x38#8) = md s := by simp [md]

/-- The predicate reads the byte through its three bits only (R92). -/
theorem statusOk_mask (s : Byte) : statusOk (s &&& 0x38#8) = statusOk s := by
  rw [statusOk, mh_mask, ml_mask, md_mask, statusOk]

theorem statusOk_count : ((List.range 256).filter fun n => statusOk (BitVec.ofNat 8 n)).length = 32 := by
  decide

/-! ### A query on an idle constructed block -/

/-- On replies its pseudocode uses up, a query ends as the pseudocode does (R93, R96). -/
theorem exec_query_ended {q : Instr} {s : State} (hq : q.IsQuery) (hb : s.busy = false) (hc : s.constructed = true)
    (rs : List Reply) {rest : List Answer} {es : List TraceEntry} {r : Response}
    (ha : s.answers = rs.map .reply ++ rest) (hrun : Pseudo.run q rs = some ⟨es, r, []⟩) :
    exec q s = .next (s.ended es r rest) := by
  have hop : q.op ≠ .configure := hq
  simpa [hop] using sequencerCarriesOutThePseudocode q s rs rest ⟨es, r, []⟩ ⟨hb, fun _ => hc⟩ ha hrun

/-! ### The statements of spec/41_status.md -/

/-- Settles O8: each bit is a mask test, and the predicate reads the three bits only. -/
theorem statusPredicateIsTheMaskTest : Obligations.StatusPredicateIsTheMaskTest := by
  refine ⟨fun s => ⟨?mh, ?ml, ?md, statusOk_eq_true_iff_bits s, statusOk_eq_true_iff s⟩, statusOk_count, by decide,
    fun s => ⟨mh_mask s, ml_mask s, md_mask s, statusOk_mask s⟩⟩
  all_goals exact getLsbD_eq_true_iff_and_twoPow_ne (by decide)

/-- Settles O25: the pseudocode of GET_STATUS ends on the four replies, or at the first that fails. -/
theorem getStatusReportsAllFourFields : Obligations.GetStatusReportsAllFourFields := by
  intro s rest x0 x1 x2 y0 y1 y2 st g e hb hc w0 r0 w1 r1 bad
  have ends := exec_query_ended (q := .getStatus) nofun hb hc
  exact ⟨fun ha => ends [.ok x0 x1, .ok st x2, .ok y0 y1, .ok g y2] ha rfl,
    fun ha => ends [.err e] ha rfl,
    fun ha => ends [.ok x0 x1, .err e] ha rfl,
    fun ha => ends [.ok x0 x1, .ok st x2, .err e] ha rfl,
    fun ha => ends [.ok x0 x1, .ok st x2, .ok y0 y1, .err e] ha rfl⟩

/-- Settles O26: the pseudocode of IS_OK ends on the two replies, or at the first that fails. -/
theorem isOkReportsThePredicate : Obligations.IsOkReportsThePredicate := by
  intro s rest x0 x1 x2 st e hb hc w0 bad
  have ends := exec_query_ended (q := .isOk) nofun hb hc
  exact ⟨fun ha => ends [.ok x0 x1, .ok st x2] ha rfl,
    fun ha => ends [.err e] ha rfl,
    fun ha => ends [.ok x0 x1, .err e] ha rfl⟩

end Machine

end Sys2Proof

/-! # Proofs about the angle queries and the configuration read-back

The layers, in order: the scaler, the pseudocode of GET_ANGLE_DEG on each side of the gate, the queries of one two-byte
pair, and the statements of spec/42_angle.md. -/

namespace Sys2Proof

namespace Machine

/-! ### The scaler -/

/-- The scaled value of the greatest word, and so of every word, fits in `u22` (R75, R110). -/
theorem scale_toNat_le (r : Half) : (scale r).toNat ≤ 2949075 := by
  have hr := r.isLt
  rw [scale_toNat]
  omega

/-- 45 units of 1/512 degree are 360 / 4096 degrees: D0's formula, exactly (R110 (a)). -/
theorem scale_div_eq_degrees (r : Half) : ((scale r).toNat : ℚ) / 512 = (r.toNat : ℚ) / 4096 * 360 := by
  rw [scale_toNat]
  push_cast
  ring

/-- A larger word scales to a larger value (R110 (b)). -/
theorem scale_lt_scale {r q : Half} (h : r.toNat < q.toNat) : (scale r).toNat < (scale q).toNat := by
  rw [scale_toNat, scale_toNat]
  exact Nat.mul_lt_mul_of_pos_right h (by decide)

theorem scale_word16_eq (b0 b1 : Byte) :
    scale (word16 b0 b1) = BitVec.ofNat 22 ((b0.toNat * 256 + b1.toNat) * 45) := by
  rw [scale_eq, word16_toNat]

/-! ### The gate in the pseudocode -/

namespace Pseudo

variable {x0 x1 x2 st : Byte}

/-- Past the gate GET_ANGLE_DEG goes on as GET_ANGLE_DEG_FAST does (R104, R108). -/
theorem getAngleDeg_of_ok (h : st &&& 0x38#8 = 0x20#8) (rs : List Reply) :
    run .getAngleDeg (.ok x0 x1 :: .ok st x2 :: rs) = (run .getAngleDegFast rs).map fun d =>
      { d with entries := wrote [Config.regStatus] :: readIn [st] :: d.entries } := by
  simp [run, getAngleDeg, getAngleDegFast, write, read1, h, Function.comp_def]

/-- At the gate GET_ANGLE_DEG ends and leaves the other replies alone (R105). -/
theorem getAngleDeg_of_not_ok (h : st &&& 0x38#8 ≠ 0x20#8) (rs : List Reply) :
    run .getAngleDeg (.ok x0 x1 :: .ok st x2 :: rs) =
      some ⟨[wrote [Config.regStatus], readIn [st]], .unavailable, rs⟩ := by
  simp [run, getAngleDeg, write, read1, respond, h]

end Pseudo

/-! ### The queries of one two-byte pair -/

/-- A query whose pseudocode selects a register, reads two bytes and responds with a value of them ends after the pair
with that value, or after the first transaction that fails with its error (R103, R114). -/
theorem exec_pair_ended {q : Instr} {reg : Byte} {value : Byte → Byte → Data} (hq : q.IsQuery)
    (hrun : Pseudo.run q = Pseudo.write [reg] (Pseudo.read2 fun b0 b1 => Pseudo.respond (.ok (value b0 b1))))
    {s : State} (hb : s.busy = false) (hc : s.constructed = true) (rest : List Answer) (x0 x1 b0 b1 : Byte)
    (e : TransportErr) :
    (s.answers = .reply (.ok x0 x1) :: .reply (.ok b0 b1) :: rest →
      exec q s = .next (s.ended [wrote [reg], readIn [b0, b1]] (.ok (value b0 b1)) rest)) ∧
    (s.answers = .reply (.err e) :: rest →
      exec q s = .next (s.ended [failed (busWrite [reg]) e] (.transportError e) rest)) ∧
    (s.answers = .reply (.ok x0 x1) :: .reply (.err e) :: rest →
      exec q s = .next (s.ended [wrote [reg], failed (busRead 2) e] (.transportError e) rest)) := by
  have ends := exec_query_ended hq hb hc
  rw [hrun] at ends
  exact ⟨fun ha => ends [.ok x0 x1, .ok b0 b1] ha rfl,
    fun ha => ends [.err e] ha rfl,
    fun ha => ends [.ok x0 x1, .err e] ha rfl⟩

/-! ### The statements of spec/42_angle.md -/

/-- Settles O9: the word is the concatenation of the two bytes. -/
theorem twoByteWordsAreBigEndian : Obligations.TwoByteWordsAreBigEndian :=
  fun b0 b1 => ⟨word16_toNat b0 b1, word16_high b0 b1⟩

/-- Settles O10: 45 times the greatest 16-bit word is below `2 ^ 22`, so that the product is the number's. -/
theorem scalerIsExactAndIncreasing : Obligations.ScalerIsExactAndIncreasing :=
  ⟨fun r => ⟨scale_toNat r, scale_toNat_le r, scale_div_eq_degrees r⟩, fun _ _ => scale_lt_scale⟩

/-- Settles O11: 4096 * 45 is a full turn of 360 * 512 units. -/
theorem degreesStayBelowAFullTurnUnderTheContract : Obligations.DegreesStayBelowAFullTurnUnderTheContract := by
  intro r
  have hmax := scale_toNat_le r
  rw [scale_toNat] at hmax ⊢
  omega

/-- Settles O27: GET_RAW_ANGLE is a query of one pair. -/
theorem getRawAngleReturnsTheWordUnmasked : Obligations.GetRawAngleReturnsTheWordUnmasked :=
  fun _ rest x0 x1 b0 b1 e hb hc => exec_pair_ended (q := .getRawAngle) nofun rfl hb hc rest x0 x1 b0 b1 e

/-- Settles O30: GET_ANGLE_DEG_FAST is a query of one pair. -/
theorem getAngleDegFastReturnsDegreesUngated : Obligations.GetAngleDegFastReturnsDegreesUngated :=
  fun _ rest x0 x1 b0 b1 e hb hc => exec_pair_ended (q := .getAngleDegFast) nofun rfl hb hc rest x0 x1 b0 b1 e

/-- Settles O31: GET_RAW_CONFIG is a query of one pair. -/
theorem getRawConfigReturnsTheWordAsReceived : Obligations.GetRawConfigReturnsTheWordAsReceived :=
  fun _ rest x0 x1 b0 b1 e hb hc => exec_pair_ended (q := .getRawConfig) nofun rfl hb hc rest x0 x1 b0 b1 e

/-- Settles O28: past the gate the pseudocode ends on the angle pair, or at the first transaction that fails. -/
theorem getAngleDegReturnsDegreesWhenOk : Obligations.GetAngleDegReturnsDegreesWhenOk := by
  intro s rest x0 x1 x2 y0 y1 st b0 b1 e hb hc hst w0 r0 w1 bad
  have ends := exec_query_ended (q := .getAngleDeg) nofun hb hc
  exact ⟨fun ha => ends [.ok x0 x1, .ok st x2, .ok y0 y1, .ok b0 b1] ha (Pseudo.getAngleDeg_of_ok hst _),
    fun ha => ends [.err e] ha rfl,
    fun ha => ends [.ok x0 x1, .err e] ha rfl,
    fun ha => ends [.ok x0 x1, .ok st x2, .err e] ha (Pseudo.getAngleDeg_of_ok hst _),
    fun ha => ends [.ok x0 x1, .ok st x2, .ok y0 y1, .err e] ha (Pseudo.getAngleDeg_of_ok hst _)⟩

/-- Settles O29: the pseudocode ends at the gate, and the code of `UNAVAILABLE` is not the code of `OK`. -/
theorem getAngleDegShortCircuitsWhenNotOk : Obligations.GetAngleDegShortCircuitsWhenNotOk := by
  intro s rest x0 x1 x2 st hb hc hst ha
  refine ⟨exec_query_ended (q := .getAngleDeg) nofun hb hc [.ok x0 x1, .ok st x2] ha
    (Pseudo.getAngleDeg_of_not_ok hst []), fun d hword => ?_⟩
  have hcode : Response.unavailable.code = (Response.ok d).code := by
    rw [← Response.word_code, hword, Response.word_code]
  exact absurd hcode (by simp [Response.code])

/-- Settles O32: both queries respond with the scaled word of the angle pair. -/
theorem degreeQueriesAgree : Obligations.DegreeQueriesAgree := by
  refine ⟨fun s t x0 x1 x2 y0 y1 z0 z1 st b0 b1 rest more hsb htb hsc htc hst hsa hta => ?_, by decide⟩
  rw [scale_word16_eq]
  obtain ⟨hgated, -⟩ := getAngleDegReturnsDegreesWhenOk s rest x0 x1 x2 y0 y1 st b0 b1 ⟨0⟩ hsb hsc hst
  obtain ⟨hfast, -⟩ := getAngleDegFastReturnsDegreesUngated t more z0 z1 b0 b1 ⟨0⟩ htb htc
  exact ⟨_, _, hgated hsa, hfast hta, rfl, rfl⟩

end Machine

end Sys2Proof

/-! # Proofs about the exceptions

The layers, in order: renaming the transport's errors, the refusal of queries, and how the transactions of an operation
explain its response. -/

namespace Sys2Proof

namespace Machine

/-! ### Renaming the transport's errors -/

section
variable (f : TransportErr → TransportErr)

theorem resume_mapErr (s : State) : resume (s.mapErr f) = Result.map (State.mapErr f) (resume s) :=
  (passive_mapErr f).settle (fun _ _ => rfl) s.answers s

theorem startOperation_mapErr (op : Op) (opt : Option Options) (s : State) :
    startOperation op opt (s.mapErr f) = Result.map (State.mapErr f) (startOperation op opt s) := by
  have hissue : issue op 0#3 ((s.mapErr f).accept op opt) =
      Result.map (State.mapErr f) (issue op 0#3 (s.accept op opt)) :=
    (passive_mapErr f).issue op 0#3 (s.accept op opt)
  rw [startOperation, startOperation, hissue]
  cases issue op 0#3 (s.accept op opt) with
  | next u => exact resume_mapErr f u
  | fault x => rfl
  | refused x => rfl

theorem refuse_mapErr (s : State) (r : Response) : (s.mapErr f).refuse (r.mapErr f) = (s.refuse r).mapErr f := by
  simp [State.refuse, State.mapErr]

theorem exec_mapErr (i : Instr) (s : State) : exec i (s.mapErr f) = Result.map (State.mapErr f) (exec i s) := by
  rcases Bool.eq_false_or_eq_true s.busy with hb | hb
  · rw [exec_busy hb, exec_busy (s := s.mapErr f) hb]
    rfl
  · by_cases hacc : i.IsQuery → s.constructed = true
    · rw [exec_accepted ⟨hb, hacc⟩, exec_accepted (s := s.mapErr f) ⟨hb, hacc⟩, startOperation_mapErr]
    · obtain ⟨hi, hc⟩ := Classical.not_imp.mp hacc
      have hc : s.constructed = false := by simpa using hc
      rw [exec_refused hb hc hi, exec_refused (s := s.mapErr f) hb hc hi]
      exact congrArg Host.Outcome.next (refuse_mapErr f s .notConstructed)

theorem runCommand_mapErr (w : CommandWord) (s : State) :
    runCommand w (s.mapErr f) = Result.map (State.mapErr f) (runCommand w s) := by
  cases hd : decode w with
  | ok i => rw [runCommand_ok hd, runCommand_ok hd, exec_mapErr]
  | error x =>
    cases x
    rw [runCommand_illegal hd, runCommand_illegal hd]
    exact congrArg Host.Outcome.next (refuse_mapErr f s .illegalOp)

end

/-- Settles O36: each kind of step commutes with the renaming, the sequencer by `Passive.settle`. -/
theorem errorValuesPassThroughUninspected : Obligations.ErrorValuesPassThroughUninspected := by
  intro f s
  by_cases hr : s.host.head? = some .reset
  · obtain ⟨more, hh⟩ := List.head?_eq_some_iff.mp hr
    rw [step_reset hh, step_reset (s := s.mapErr f) hh]
    rfl
  rcases Bool.eq_false_or_eq_true s.busy with hb | hb
  · rw [step_busy hb hr, step_busy (s := s.mapErr f) hb hr, resume_mapErr]
  rcases hh : s.host with _ | ⟨_ | w, more⟩
  · rw [step_wait hb hh, step_wait (s := s.mapErr f) hb hh]
    rfl
  · rw [step_command hb hh, step_command (s := s.mapErr f) hb hh]
    exact runCommand_mapErr f _ { s with host := more }
  · simp [hh] at hr

/-! ### Queries before a CONFIGURE has succeeded -/

theorem exists_configure_of_not_isQuery {i : Instr} (hi : ¬ i.IsQuery) :
    ∃ h pm wd fft sf pwm os, i = .configure h pm wd fft sf pwm os := by
  cases i with
  | configure h pm wd fft sf pwm os => exact ⟨h, pm, wd, fft, sf, pwm, os, rfl⟩
  | getStatus | isOk | getRawAngle | getAngleDeg | getAngleDegFast | getRawConfig => exact absurd nofun hi

/-- Settles O20: a query is refused by `exec_refused`, and a CONFIGURE that failed ends idle with `constructed` still
0. -/
theorem queriesAreRefusedUntilConstructed : Obligations.QueriesAreRefusedUntilConstructed := by
  intro s hb hc
  refine ⟨fun i hi => exec_refused hb hc hi, fun i t hi hexec => ?_, fun i q e rest hi hq ha => ?_, rfl, rfl⟩
  all_goals obtain ⟨h, pm, wd, fft, sf, pwm, os, rfl⟩ := exists_configure_of_not_isQuery hi
  · obtain ⟨hrsp, -⟩ | ⟨hrsp, -⟩ | ⟨e, hrsp, -⟩ := exec_configure_cases hb hexec <;> simp [hrsp]
  · obtain ⟨-, hfails⟩ := configureWritesTheConfiguration h pm wd fft sf pwm os s rest hb
    exact ⟨_, _, hfails e ha, rfl, exec_refused (by rfl) hc hq, rfl, rfl⟩

/-! ### The transactions that explain a response -/

/-- The gate is row 1 of GET_ANGLE_DEG alone, the read of the status byte (R48, R105). -/
theorem eq_of_gate {op : Op} {k : BitVec 3} {row : Row} (h : rowAt op k = some row) (ha : row.advance = .gate) :
    op = .getAngleDeg ∧ k = 1#3 ∧ row = ⟨.read .status, .status, .gate⟩ := by
  have table : ∀ (op : Op) (k : BitVec 3), ∀ row ∈ rowAt op k, row.advance = .gate →
      op = .getAngleDeg ∧ k = 1#3 ∧ row = ⟨.read .status, .status, .gate⟩ := by
    intro op
    cases op <;> decide
  exact table op k row h ha

/-- The entries `es` that operation `op` added from row `k` on explain what stands on the response port: the exception
carries the error of the last of them, `UNAVAILABLE` comes from the gate, and otherwise none failed (R117, R119,
R122). -/
structure Explains (op : Op) (k : BitVec 3) (es : List TraceEntry) (r : Option Response) : Prop where
  raised : ∀ e, r = some (.transportError e) →
    ∃ init tx, es = init ++ [failed tx e] ∧ ∀ x ∈ init, x.succeeded = true
  unavailable : r = some .unavailable →
    op = .getAngleDeg ∧ k.toNat ≤ 1 ∧
      ∃ st, statusOk st = false ∧ es = [wrote [Config.regStatus], readIn [st]].drop k.toNat
  succeeded : (∀ e, r ≠ some (.transportError e)) → ∀ x ∈ es, x.succeeded = true

namespace Explains

variable {op : Op} {k : BitVec 3} {es : List TraceEntry} {r : Option Response}

theorem nil (hraised : ∀ e, r ≠ some (.transportError e)) (hunavailable : r ≠ some .unavailable) :
    Explains op k [] r :=
  ⟨fun e he => absurd he (hraised e), fun he => absurd he hunavailable, by simp⟩

theorem of_failed (tx : Transaction) (e : TransportErr) :
    Explains op k [failed tx e] (some (.transportError e)) :=
  ⟨fun _ he => by cases he; exact ⟨[], tx, rfl, by simp⟩, nofun, fun he => absurd rfl (he e)⟩

theorem of_ok (tx : Transaction) (bytes : List Byte) (d : Data) : Explains op k [⟨tx, .ok bytes⟩] (some (.ok d)) :=
  ⟨nofun, nofun, fun _ => by simp [TraceEntry.succeeded]⟩

theorem of_gate {st : Byte} (hst : statusOk st = false) :
    Explains .getAngleDeg 1#3 [readIn [st]] (some .unavailable) :=
  ⟨nofun, fun _ => ⟨rfl, Nat.le_refl 1, st, hst, rfl⟩, fun _ => by simp [TraceEntry.succeeded, readIn]⟩

/-- A transaction that returned `ok` before the next row began. -/
theorem cons {row : Row} {tx : Transaction} {opt : Option Options} (hrow : rowAt op k = some row)
    (htx : rowTransaction row opt = some tx) (b0 b1 : Byte) (h : Explains op (k + 1#3) es r) :
    Explains op k (⟨tx, .ok (received tx b0 b1)⟩ :: es) r where
  raised e he := by
    obtain ⟨init, tx', rfl, hinit⟩ := h.raised e he
    exact ⟨_ :: init, tx', rfl, List.forall_mem_cons.mpr ⟨rfl, hinit⟩⟩
  unavailable he := by
    obtain ⟨rfl, hk, st, hst, rfl⟩ := h.unavailable he
    rw [toNat_succ_of_rowAt hrow] at hk
    obtain rfl : k = 0#3 := BitVec.eq_of_toNat_eq (by simpa using hk)
    cases hrow
    cases htx
    exact ⟨rfl, Nat.zero_le 1, st, hst, rfl⟩
  succeeded he := List.forall_mem_cons.mpr ⟨rfl, h.succeeded he⟩

theorem transportError_iff_getLast? (h : Explains op k es r) (e : TransportErr) :
    r = some (.transportError e) ↔ ∃ tx, es.getLast? = some (failed tx e) := by
  refine ⟨fun he => ?_, fun ⟨tx, hlast⟩ => ?_⟩
  · obtain ⟨init, tx, rfl, -⟩ := h.raised e he
    exact ⟨tx, List.getLast?_concat⟩
  · by_cases hr : ∃ e', r = some (.transportError e')
    · obtain ⟨e', rfl⟩ := hr
      obtain ⟨init, tx', rfl, -⟩ := h.raised e' rfl
      rw [List.getLast?_concat] at hlast
      cases hlast
      rfl
    · exact absurd (h.succeeded (not_exists.mp hr) _ (List.mem_of_getLast? hlast)) nofun

theorem transportError_iff_exists_failed (h : Explains op k es r) :
    (∃ e, r = some (.transportError e)) ↔ ∃ x ∈ es, x.succeeded = false := by
  refine ⟨fun ⟨e, he⟩ => ?_, fun ⟨x, hx, hfail⟩ => ?_⟩
  · obtain ⟨init, tx, rfl, -⟩ := h.raised e he
    exact ⟨failed tx e, by simp, rfl⟩
  · by_contra hr
    simp [h.succeeded (not_exists.mp hr) x hx] at hfail

end Explains

/-- The return of the outstanding transaction begins the next row after an `ok`, or ends the operation with a response
that this one transaction explains (R18, R48, R117). -/
theorem State.Outstanding.complete_explains {r : Reply} {s u : State} {op : Op} {k : BitVec 3}
    (hs : s.Outstanding op k) (hc : Machine.complete r s = .next u) :
    ∃ row tx, rowAt op k = some row ∧ rowTransaction row s.opt = some tx ∧
      u.trace = s.trace ++ [⟨tx, r.outcome tx⟩] ∧
      ((∃ b0 b1, r = .ok b0 b1 ∧ u.Outstanding op (k + 1#3) ∧ u.rsp = s.rsp) ∨
        (u.busy = false ∧ Explains op k [⟨tx, r.outcome tx⟩] u.rsp)) := by
  obtain ⟨row, tx, hrow, htx, hbus⟩ := hs.issued
  obtain ⟨op', k', tx', row', hop, hk, hbus', hrow', hend⟩ := complete_cases hc
  obtain rfl : op = op' := by simpa [hs.curOp] using hop
  obtain rfl : k = k' := by simpa [hs.stepIdx] using hk
  obtain rfl : tx = tx' := by simpa [hbus] using hbus'
  obtain rfl : row = row' := by simpa [hrow] using hrow'
  refine ⟨row, tx, hrow, htx, ?_⟩
  obtain ⟨e, rfl, rfl⟩ | ⟨b0, b1, rfl, hadv⟩ := hend
  · exact ⟨by simp [Reply.outcome], .inr ⟨rfl, .of_failed tx e⟩⟩
  obtain ⟨-, hissue, -⟩ | ⟨-, v, -, rfl⟩ | ⟨ha, st, hst, hnot, rfl⟩ := advance_cases hadv
  · have hout := issue_outstanding hissue (by simpa using hop)
    obtain ⟨row', tx', -, -, rfl⟩ := issue_cases hissue
    exact ⟨by simp [Reply.outcome], .inl ⟨b0, b1, rfl, hout, by simp⟩⟩
  · exact ⟨by simp [State.beforeOk, Reply.outcome], .inr ⟨rfl, .of_ok tx _ v⟩⟩
  · obtain ⟨rfl, rfl, rfl⟩ := eq_of_gate hrow ha
    cases htx
    obtain rfl : b0 = st := by simpa using hst
    exact ⟨by simp [Reply.outcome], .inr ⟨rfl, .of_gate hnot⟩⟩

/-- From `s` to `t` the trace grows by entries that explain what `t` has on the response port. -/
def ExplainsResponse (op : Op) (k : BitVec 3) (s t : State) : Prop :=
  ∃ es, t.trace = s.trace ++ es ∧ Explains op k es t.rsp

theorem ExplainsResponse.of_rsp_none {op : Op} {k : BitVec 3} {s t : State} (htrace : t.trace = s.trace)
    (hrsp : t.rsp = none) : ExplainsResponse op k s t :=
  ⟨[], by simp [htrace], .nil (by simp [hrsp]) (by simp [hrsp])⟩

/-- What the sequencer answers is explained by the transactions that returned from the outstanding one on. -/
theorem settle_explains {as : List Answer} {s t : State} {op : Op} {k : BitVec 3} (hs : s.Outstanding op k)
    (hrsp : s.rsp = none) (h : settle as s = .next t) : ExplainsResponse op k s t := by
  refine (settle_induction (P := fun _ s t => (s.busy = false → t.trace = s.trace ∧ t.rsp = s.rsp) ∧
    ∀ op k, s.Outstanding op k → s.rsp = none → ExplainsResponse op k s t)
      ?idle ?nil ?later ?reply h).2 op k hs hrsp
  case idle => exact fun as s _ => ⟨fun _ => ⟨rfl, rfl⟩, fun _ _ _ => .of_rsp_none rfl⟩
  case nil => exact fun s _ => ⟨fun _ => ⟨rfl, rfl⟩, fun _ _ _ => .of_rsp_none rfl⟩
  case later => exact fun as s _ => ⟨fun _ => ⟨rfl, rfl⟩, fun _ _ _ => .of_rsp_none rfl⟩
  case reply =>
    rintro r as s u t hb hc ⟨hidle, hbusy⟩
    refine ⟨by simp [hb], fun op k hs hrsp => ?_⟩
    obtain ⟨row, tx, hrow, htx, htrace, ⟨b0, b1, rfl, hu, hursp⟩ | ⟨hu, hexpl⟩⟩ := hs.complete_explains hc
    · obtain ⟨es, hes, hexpl⟩ := hbusy op (k + 1#3) hu (hursp.trans hrsp)
      exact ⟨_, by simpa [htrace, Reply.outcome] using hes, .cons hrow htx b0 b1 hexpl⟩
    · obtain ⟨htrace', hrsp'⟩ := hidle hu
      exact ⟨_, htrace'.trans htrace, hrsp' ▸ hexpl⟩

/-- The response of a command presented to an idle block: a refusal comes with no transaction (R123). -/
theorem exec_explains {i : Instr} {s t : State} (hb : s.busy = false) (h : exec i s = .next t) :
    ExplainsResponse i.op 0#3 s t := by
  obtain ⟨hb', -⟩ | ⟨-, -, -, rfl⟩ | ⟨-, row, tx, hrow, htx, h⟩ := exec_cases h
  · simp [hb] at hb'
  · exact ⟨[], by simp, .nil (by simp) (by simp)⟩
  · exact settle_explains (s := { s.accept i.op i.opt with bus := some tx }) (accept_outstanding hrow htx s) rfl h

theorem eq_getAngleDeg_of_op {i : Instr} (h : i.op = .getAngleDeg) : i = .getAngleDeg := by
  cases i with
  | getAngleDeg => rfl
  | configure | getStatus | isOk | getRawAngle | getAngleDegFast | getRawConfig => cases h

/-- Settles O46, by `exec_explains`. -/
theorem transportErrorIsTheLastTransaction : Obligations.TransportErrorIsTheLastTransaction := by
  intro i s t hb h
  obtain ⟨es, hes, hexpl⟩ := exec_explains hb h
  exact ⟨es, hes, hexpl.transportError_iff_getLast?, hexpl.transportError_iff_exists_failed⟩

/-- Settles O47: of the entries that explain the response, `UNAVAILABLE` has the status pair, or what is left of it. -/
theorem unavailableComesOnlyFromTheGate : Obligations.UnavailableComesOnlyFromTheGate := by
  refine ⟨fun i s t hb h hrsp => ?_, fun s t op k hb hs hr h hrsp => ?_⟩
  · obtain ⟨es, hes, hexpl⟩ := exec_explains hb h
    obtain ⟨hop, -, st, hst, rfl⟩ := hexpl.unavailable hrsp
    exact ⟨eq_getAngleDeg_of_op hop, st, hst, hes⟩
  · rw [step_busy hb hr] at h
    obtain ⟨es, hes, hexpl⟩ := settle_explains hs.outstanding hs.rsp h
    obtain ⟨hop, hk, st, hst, rfl⟩ := hexpl.unavailable hrsp
    refine ⟨hop, hk, st, hst, ?_⟩
    obtain hk | hk : k.toNat = 0 ∨ k.toNat = 1 := by omega
    all_goals simp [hes, hk]

end Machine

end Sys2Proof

/-! # Proofs about hazards: when a command has to wait

Two facts carry the statement about a busy block: the sequencer leaves the host's events as they are, and what it does
does not depend on them. -/

namespace Sys2Proof

namespace Machine

/-- What the host will do next is carried through an operation in progress unread (R143, R156). -/
theorem resume_withHost (hs : List HostEvent) (s : State) :
    resume { s with host := hs } = Result.map (fun t => { t with host := hs }) (resume s) :=
  (passive_host hs).settle_id (fun _ _ => rfl) s.answers s

/-- Settles O21: a busy block goes on with its operation, and `resume` neither takes nor reads the host's events. -/
theorem busyBlockAcceptsNoCommand : Obligations.BusyBlockAcceptsNoCommand := by
  refine ⟨fun i s hb => exec_busy hb, fun s t w more hb hh h => ?_⟩
  rw [step_busy hb (by simp [hh])] at h
  obtain ⟨hhost, -⟩ := settle_frame h
  refine ⟨hhost, ?_⟩
  calc step { s with host := [] }
    _ = resume { s with host := [] } := step_busy hb (by simp)
    _ = .next { t with host := [] } := by rw [resume_withHost, h]; rfl

/-- Settles O22, by `step_wait`. -/
theorem idleBlockWaitsForACommand : Obligations.IdleBlockWaitsForACommand :=
  fun _ => step_wait

end Machine

end Sys2Proof
